-- ==== Sys2Proof/Word.lean ====
section
/-! DEFINITION. The word types of the machine: a data byte, a data-memory address, a program-memory address, an
instruction word (spec/00_scope.md R7, R9, R10). -/

namespace Sys2Proof

/-- A data byte (`DATA_BITS` = 8, R7). -/
abbrev Byte := BitVec 8

/-- A 12-bit data-memory address (`DATA_ADDR_BITS` = 12, R7). -/
abbrev DAddr := BitVec 12

/-- A 21-bit program-memory byte address (`PC_BITS` = 21, R8, R24). -/
abbrev PAddr := BitVec 21

/-- One instruction word (`INSTR_BITS` = 16, R7). -/
abbrev IWord := BitVec 16

/-- The low byte of an instruction word: the byte stored at the even address (R81). -/
def IWord.lo (x : IWord) : Byte := x.extractLsb' 0 8

/-- The high byte of an instruction word: the byte stored at the odd address (R81). -/
def IWord.hi (x : IWord) : Byte := x.extractLsb' 8 8

end Sys2Proof
end

