-- ==== Sys2Proof/Config.lean ====
section
/-! DEFINITION. What an implementation fixes (spec/00_scope.md R8) and the free values the environment supplies
(R11 `draw`). -/

namespace Sys2Proof.Config

/-- `PROG_MEM_BYTES` (R8, OPEN): program memory is byte addresses 0 to `progMemBytes - 1`.
DESIGN CHOICE 32768, the PIC18F252/452 size that spec/95_test_vectors.md uses (log 12). Unsafe. -/
def progMemBytes : Nat := 32768

/-- `GPR_TOP` (R8, OPEN): general-purpose RAM is data addresses 000h to `gprTop`.
DESIGN CHOICE 5FFh, the PIC18F252/452 size that spec/95_test_vectors.md uses (log 12). Unsafe. -/
def gprTop : Nat := 0x5FF

/-- `ACCESS_SPLIT` (R8, R94): the first `f` value the Access Bank maps to the register page. -/
def accessSplit : Nat := 0x80

/-- `STACK_DEPTH` (R8, R40): the number of return-stack entries. -/
def stackDepth : Nat := 31

/-- `HAS_PORTD_E` (R8, OPEN): PORTD, PORTE, LATD, LATE, TRISD, TRISE and the PSP interrupt bits exist.
DESIGN CHOICE true, the PIC18F4X2 devices (log 12). Unsafe. -/
def hasPortDE : Bool := true

/-- `HAS_SUBFWB_DAW` (R8, D1): the two secondary-only instructions decode. The spec's default. -/
def hasSubfwbDaw : Bool := true

/-- `WDT_ENABLED` (R8, OPEN): a watchdog time-out the environment makes has its effect (R332).
DESIGN CHOICE true: with it true every run with it false is one whose environment makes no time-out (log 12). Safe. -/
def wdtEnabled : Bool := true

/-- What a data-memory cell that nothing has written holds. DESIGN CHOICE 00h: R70 gives none (log 2). Unsafe. -/
def dataFill : Byte := 0x00#8

/-- What a program-memory byte that nothing has placed holds. DESIGN CHOICE FFh, as in the notation of
spec/95_test_vectors.md (log 3). Unsafe. -/
def progFill : Byte := 0xFF#8

/-- Reset entry address (R103). -/
def resetVector : PAddr := 0x000000#21

/-- High-priority, and with IPEN = 0 only, interrupt vector (R103, R317). -/
def highVector : PAddr := 0x000008#21

/-- Low-priority interrupt vector (R103, R317). -/
def lowVector : PAddr := 0x000018#21

/-- `draw(8)` of R11: the n-th byte the environment supplies, under no law (D24, D32). It has no body, so no proof can
rest on its value. A state holds the number of draws made so far. -/
opaque draw : Nat → Byte

end Sys2Proof.Config
end

