-- ==== Sys2Proof/Syntax.lean ====
section
/-! DEFINITION. The instructions, one constructor per row of spec/opcode_table.json. Operand letters are the spec's
(spec/00_scope.md R13): `f` file-register field, `d` destination, `a` RAM access bit, `b` bit number, `k` literal, `n` branch
offset, `s` fast-return bit, `x` ignored bits. -/

namespace Sys2Proof

/-- The instruction set: 76 rows (R5), in the order of spec/opcode_table.json. -/
inductive Instr where
  -- data movement (spec/40_data_movement.md)
  | movlb (k : BitVec 4)
  | movlw (k : Byte)
  | movf (f : Byte) (d a : Bool)
  | movff (fs fd : DAddr)
  | movwf (f : Byte) (a : Bool)
  | swapf (f : Byte) (d a : Bool)
  | tblrd
  | tblrdPostInc
  | tblrdPostDec
  | tblrdPreInc
  | tblwt
  | tblwtPostInc
  | tblwtPostDec
  | tblwtPreInc
  -- arithmetic (spec/41_arithmetic.md)
  | addlw (k : Byte)
  | addwf (f : Byte) (d a : Bool)
  | addwfc (f : Byte) (d a : Bool)
  | mullw (k : Byte)
  | mulwf (f : Byte) (a : Bool)
  | sublw (k : Byte)
  | subwf (f : Byte) (d a : Bool)
  | subwfb (f : Byte) (d a : Bool)
  | clrf (f : Byte) (a : Bool)
  | decf (f : Byte) (d a : Bool)
  | decfsz (f : Byte) (d a : Bool)
  | dcfsnz (f : Byte) (d a : Bool)
  | incf (f : Byte) (d a : Bool)
  | incfsz (f : Byte) (d a : Bool)
  | infsnz (f : Byte) (d a : Bool)
  | setf (f : Byte) (a : Bool)
  -- logic, compare, rotate, pointer load (spec/42_logic_compare.md)
  | andlw (k : Byte)
  | andwf (f : Byte) (d a : Bool)
  | comf (f : Byte) (d a : Bool)
  | cpfseq (f : Byte) (a : Bool)
  | cpfsgt (f : Byte) (a : Bool)
  | cpfslt (f : Byte) (a : Bool)
  | iorlw (k : Byte)
  | iorwf (f : Byte) (d a : Bool)
  | lfsr (ff : BitVec 2) (k : BitVec 12)
  | negf (f : Byte) (a : Bool)
  | rlcf (f : Byte) (d a : Bool)
  | rlncf (f : Byte) (d a : Bool)
  | rrcf (f : Byte) (d a : Bool)
  | rrncf (f : Byte) (d a : Bool)
  | tstfsz (f : Byte) (a : Bool)
  | xorlw (k : Byte)
  | xorwf (f : Byte) (d a : Bool)
  -- bits (spec/43_bit_oriented.md)
  | bcf (f : Byte) (b : BitVec 3) (a : Bool)
  | bsf (f : Byte) (b : BitVec 3) (a : Bool)
  | btfsc (f : Byte) (b : BitVec 3) (a : Bool)
  | btfss (f : Byte) (b : BitVec 3) (a : Bool)
  | btg (f : Byte) (b : BitVec 3) (a : Bool)
  -- control (spec/44_control.md)
  | bc (n : BitVec 8)
  | bn (n : BitVec 8)
  | bnc (n : BitVec 8)
  | bnn (n : BitVec 8)
  | bnov (n : BitVec 8)
  | bnz (n : BitVec 8)
  | bov (n : BitVec 8)
  | bz (n : BitVec 8)
  | bra (n : BitVec 11)
  | call (k : BitVec 20) (s : Bool)
  | clrwdt
  | goto (k : BitVec 20)
  | nop
  | nopF (x : BitVec 12)
  | pop
  | push
  | rcall (n : BitVec 11)
  | reset
  | retfie (s : Bool)
  | retlw (k : Byte)
  | ret (s : Bool)
  | sleep
  -- secondary only (spec/45_secondary_only.md)
  | subfwb (f : Byte) (d a : Bool)
  | daw
  deriving DecidableEq, Repr

namespace Instr

/-- Whether the instruction has two words (R120): exactly MOVFF, LFSR, CALL and GOTO. -/
def isTwoWord : Instr → Bool
  | .movff _ _ | .lfsr _ _ | .call _ _ | .goto _ => true
  | _ => false

/-- Length in bytes (R120): 2 or 4. -/
def bytes (i : Instr) : Nat := if i.isTwoWord then 4 else 2

/-- The mnemonic, as spec/opcode_table.json and R145 write it. -/
def mnemonic : Instr → String
  | .movlb _ => "MOVLB" | .movlw _ => "MOVLW" | .movf _ _ _ => "MOVF" | .movff _ _ => "MOVFF"
  | .movwf _ _ => "MOVWF" | .swapf _ _ _ => "SWAPF"
  | .tblrd => "TBLRD*" | .tblrdPostInc => "TBLRD*+" | .tblrdPostDec => "TBLRD*-" | .tblrdPreInc => "TBLRD+*"
  | .tblwt => "TBLWT*" | .tblwtPostInc => "TBLWT*+" | .tblwtPostDec => "TBLWT*-" | .tblwtPreInc => "TBLWT+*"
  | .addlw _ => "ADDLW" | .addwf _ _ _ => "ADDWF" | .addwfc _ _ _ => "ADDWFC" | .mullw _ => "MULLW"
  | .mulwf _ _ => "MULWF" | .sublw _ => "SUBLW" | .subwf _ _ _ => "SUBWF" | .subwfb _ _ _ => "SUBWFB"
  | .clrf _ _ => "CLRF" | .decf _ _ _ => "DECF" | .decfsz _ _ _ => "DECFSZ" | .dcfsnz _ _ _ => "DCFSNZ"
  | .incf _ _ _ => "INCF" | .incfsz _ _ _ => "INCFSZ" | .infsnz _ _ _ => "INFSNZ" | .setf _ _ => "SETF"
  | .andlw _ => "ANDLW" | .andwf _ _ _ => "ANDWF" | .comf _ _ _ => "COMF" | .cpfseq _ _ => "CPFSEQ"
  | .cpfsgt _ _ => "CPFSGT" | .cpfslt _ _ => "CPFSLT" | .iorlw _ => "IORLW" | .iorwf _ _ _ => "IORWF"
  | .lfsr _ _ => "LFSR" | .negf _ _ => "NEGF" | .rlcf _ _ _ => "RLCF" | .rlncf _ _ _ => "RLNCF"
  | .rrcf _ _ _ => "RRCF" | .rrncf _ _ _ => "RRNCF" | .tstfsz _ _ => "TSTFSZ" | .xorlw _ => "XORLW"
  | .xorwf _ _ _ => "XORWF"
  | .bcf _ _ _ => "BCF" | .bsf _ _ _ => "BSF" | .btfsc _ _ _ => "BTFSC" | .btfss _ _ _ => "BTFSS"
  | .btg _ _ _ => "BTG"
  | .bc _ => "BC" | .bn _ => "BN" | .bnc _ => "BNC" | .bnn _ => "BNN" | .bnov _ => "BNOV" | .bnz _ => "BNZ"
  | .bov _ => "BOV" | .bz _ => "BZ" | .bra _ => "BRA" | .call _ _ => "CALL" | .clrwdt => "CLRWDT"
  | .goto _ => "GOTO" | .nop => "NOP" | .nopF _ => "NOP" | .pop => "POP" | .push => "PUSH" | .rcall _ => "RCALL"
  | .reset => "RESET" | .retfie _ => "RETFIE" | .retlw _ => "RETLW" | .ret _ => "RETURN" | .sleep => "SLEEP"
  | .subfwb _ _ _ => "SUBFWB" | .daw => "DAW"

/-- The operands in the order the assembler writes them (R145): `f,d,a`; `f,a`; `f,b,a`; `k`; `n`; `k,s`; `s`; `fs,fd`;
`f,k`; none. A branch operand is given as its encoded field, a CALL or GOTO target as the byte address `2k` (R269, R271). -/
def operands : Instr → List Nat
  | .movf f d a | .swapf f d a | .addwf f d a | .addwfc f d a | .subwf f d a | .subwfb f d a | .decf f d a
  | .decfsz f d a | .dcfsnz f d a | .incf f d a | .incfsz f d a | .infsnz f d a | .andwf f d a | .comf f d a
  | .iorwf f d a | .rlcf f d a | .rlncf f d a | .rrcf f d a | .rrncf f d a | .xorwf f d a | .subfwb f d a =>
    [f.toNat, d.toNat, a.toNat]
  | .movwf f a | .mulwf f a | .clrf f a | .setf f a | .cpfseq f a | .cpfsgt f a | .cpfslt f a | .negf f a
  | .tstfsz f a => [f.toNat, a.toNat]
  | .bcf f b a | .bsf f b a | .btfsc f b a | .btfss f b a | .btg f b a => [f.toNat, b.toNat, a.toNat]
  | .movlb k => [k.toNat]
  | .movlw k | .addlw k | .mullw k | .sublw k | .andlw k | .iorlw k | .xorlw k | .retlw k => [k.toNat]
  | .bc n | .bn n | .bnc n | .bnn n | .bnov n | .bnz n | .bov n | .bz n => [n.toNat]
  | .bra n | .rcall n => [n.toNat]
  | .call k s => [2 * k.toNat, s.toNat]
  | .goto k => [2 * k.toNat]
  | .ret s | .retfie s => [s.toNat]
  | .movff fs fd => [fs.toNat, fd.toNat]
  | .lfsr ff k => [ff.toNat, k.toNat]
  | .tblrd | .tblrdPostInc | .tblrdPostDec | .tblrdPreInc | .tblwt | .tblwtPostInc | .tblwtPostDec | .tblwtPreInc
  | .clrwdt | .nop | .nopF _ | .pop | .push | .reset | .sleep | .daw => []

end Instr
end Sys2Proof
end

