-- ==== Sys2Proof/WellFormed.lean ====
section
/-! DEFINITION. Which terms of `Instr` are instructions of this hardware: LFSR names one of three pointers
(spec/30_encoding.md R133, R142) and the two secondary-only instructions exist under `HAS_SUBFWB_DAW`
(spec/45_secondary_only.md R300). Every other operand is exact by its type. -/

namespace Sys2Proof.Instr

/-- LFSR's `ff` selects FSR0, FSR1 or FSR2; `ff = 3` is unassigned (R133, D35). -/
def lfsrOperandOk : Instr → Bool
  | .lfsr ff _ => ff != 3#2
  | _ => true

/-- SUBFWB and DAW belong to the instruction set only with `HAS_SUBFWB_DAW` (R140, R300). -/
def secondaryOk (hasSubfwbDaw : Bool) : Instr → Bool
  | .subfwb _ _ _ | .daw => hasSubfwbDaw
  | _ => true

/-- Well-formed on a device with the given `HAS_SUBFWB_DAW`. -/
def wellFormedOn (hasSubfwbDaw : Bool) (i : Instr) : Bool :=
  i.lfsrOperandOk && i.secondaryOk hasSubfwbDaw

/-- Well-formed on the configured device. -/
def wellFormed (i : Instr) : Bool := i.wellFormedOn Config.hasSubfwbDaw

end Sys2Proof.Instr
end

