-- ==== Sys2Proof/Decode.lean ====
section
/-! DEFINITION. Decoding of instruction words, by the opcode map of spec/30_encoding.md R141, and the encoder written
from the formats of R121. Decoding is total on any bytes and rejects by name (R134, R142). -/

namespace Sys2Proof

/-! ### Decoding -/

/-- What the first word of an instruction says (R120, R140): a whole one-word instruction, the first half of a two-word
one with the operand bits it carries, or no row of the table. -/
inductive First where
  | one (i : Instr)
  | movff (fs : DAddr)
  | lfsr (ff : BitVec 2) (kHigh : BitVec 4)
  | call (s : Bool) (kLow : Byte)
  | goto (kLow : Byte)
  | illegal
  deriving DecidableEq, Repr

/-- The words with high byte 00h, by low byte (R129, R141, R142). -/
def decodeInherent (hasSubfwbDaw : Bool) (lo : Byte) : First :=
  match lo.toNat with
  | 0x00 => .one .nop
  | 0x03 => .one .sleep
  | 0x04 => .one .clrwdt
  | 0x05 => .one .push
  | 0x06 => .one .pop
  | 0x07 => if hasSubfwbDaw then .one .daw else .illegal
  | 0x08 => .one .tblrd
  | 0x09 => .one .tblrdPostInc
  | 0x0A => .one .tblrdPostDec
  | 0x0B => .one .tblrdPreInc
  | 0x0C => .one .tblwt
  | 0x0D => .one .tblwtPostInc
  | 0x0E => .one .tblwtPostDec
  | 0x0F => .one .tblwtPreInc
  | 0x10 => .one (.retfie false)
  | 0x11 => .one (.retfie true)
  | 0x12 => .one (.ret false)
  | 0x13 => .one (.ret true)
  | 0xFF => .one .reset
  | _ => .illegal

/-- The words with high byte 0Xh, by the low nibble of the high byte (R141). -/
def decodeLow (hasSubfwbDaw : Bool) (hi lo : Byte) : First :=
  match (hi.extractLsb' 0 4).toNat with
  | 0x0 => decodeInherent hasSubfwbDaw lo
  | 0x1 => if lo.extractLsb' 4 4 = 0#4 then .one (.movlb (lo.extractLsb' 0 4)) else .illegal
  | 0x2 => .one (.mulwf lo false)
  | 0x3 => .one (.mulwf lo true)
  | 0x8 => .one (.sublw lo)
  | 0x9 => .one (.iorlw lo)
  | 0xA => .one (.xorlw lo)
  | 0xB => .one (.andlw lo)
  | 0xC => .one (.retlw lo)
  | 0xD => .one (.mullw lo)
  | 0xE => .one (.movlw lo)
  | 0xF => .one (.addlw lo)
  | _ => .one (.decf lo (hi.getLsbD 1) (hi.getLsbD 0))

/-- The words with high byte 6Xh: format BYTE, by bits 3:1 of the high byte (R123, R141). -/
def decodeByte (hi lo : Byte) : First :=
  let a := hi.getLsbD 0
  match (hi.extractLsb' 1 3).toNat with
  | 0 => .one (.cpfslt lo a)
  | 1 => .one (.cpfseq lo a)
  | 2 => .one (.cpfsgt lo a)
  | 3 => .one (.tstfsz lo a)
  | 4 => .one (.setf lo a)
  | 5 => .one (.clrf lo a)
  | 6 => .one (.negf lo a)
  | _ => .one (.movwf lo a)

/-- The words with high byte 1Xh to 5Xh: format BYTE_D, by bits 7:2 of the high byte (R122, R141). -/
def decodeByteD (hasSubfwbDaw : Bool) (hi lo : Byte) : First :=
  let d := hi.getLsbD 1
  let a := hi.getLsbD 0
  match (hi.extractLsb' 2 6).toNat with
  | 0x04 => .one (.iorwf lo d a)
  | 0x05 => .one (.andwf lo d a)
  | 0x06 => .one (.xorwf lo d a)
  | 0x07 => .one (.comf lo d a)
  | 0x08 => .one (.addwfc lo d a)
  | 0x09 => .one (.addwf lo d a)
  | 0x0A => .one (.incf lo d a)
  | 0x0B => .one (.decfsz lo d a)
  | 0x0C => .one (.rrcf lo d a)
  | 0x0D => .one (.rlcf lo d a)
  | 0x0E => .one (.swapf lo d a)
  | 0x0F => .one (.incfsz lo d a)
  | 0x10 => .one (.rrncf lo d a)
  | 0x11 => .one (.rlncf lo d a)
  | 0x12 => .one (.infsnz lo d a)
  | 0x13 => .one (.dcfsnz lo d a)
  | 0x14 => .one (.movf lo d a)
  | 0x15 => if hasSubfwbDaw then .one (.subfwb lo d a) else .illegal
  | 0x16 => .one (.subwfb lo d a)
  | 0x17 => .one (.subwf lo d a)
  | _ => .illegal

/-- The words with high byte EXh, by the low nibble of the high byte (R126, R128, R141, R142). -/
def decodeControl (hi lo : Byte) : First :=
  match (hi.extractLsb' 0 4).toNat with
  | 0x0 => .one (.bz lo)
  | 0x1 => .one (.bnz lo)
  | 0x2 => .one (.bc lo)
  | 0x3 => .one (.bnc lo)
  | 0x4 => .one (.bov lo)
  | 0x5 => .one (.bnov lo)
  | 0x6 => .one (.bn lo)
  | 0x7 => .one (.bnn lo)
  | 0xC => .call false lo
  | 0xD => .call true lo
  | 0xE =>
    if lo.extractLsb' 6 2 = 0#2 && lo.extractLsb' 4 2 != 3#2 then .lfsr (lo.extractLsb' 4 2) (lo.extractLsb' 0 4)
    else .illegal
  | 0xF => .goto lo
  | _ => .illegal

/-- The first word, given as its high and low byte, by the high nibble (R141). -/
def decodeFirst (hasSubfwbDaw : Bool) (hi lo : Byte) : First :=
  let a := hi.getLsbD 0
  let b := hi.extractLsb' 1 3
  match (hi.extractLsb' 4 4).toNat with
  | 0x0 => decodeLow hasSubfwbDaw hi lo
  | 0x6 => decodeByte hi lo
  | 0x7 => .one (.btg lo b a)
  | 0x8 => .one (.bsf lo b a)
  | 0x9 => .one (.bcf lo b a)
  | 0xA => .one (.btfss lo b a)
  | 0xB => .one (.btfsc lo b a)
  | 0xC => .movff (hi.extractLsb' 0 4 ++ lo)
  | 0xD =>
    if hi.getLsbD 3 then .one (.rcall (hi.extractLsb' 0 3 ++ lo)) else .one (.bra (hi.extractLsb' 0 3 ++ lo))
  | 0xE => decodeControl hi lo
  | 0xF => .one (.nopF (hi.extractLsb' 0 4 ++ lo))
  | _ => decodeByteD hasSubfwbDaw hi lo

/-- A two-word instruction from its first half and the bytes of its second word; `none` where the second word does not
have the form R134 asks for (bits 15:12 = 1111, for LFSR bits 15:8 = 1111 0000). -/
def decodeSecond (first : First) (hi lo : Byte) : Option Instr :=
  match first with
  | .movff fs => if hi.extractLsb' 4 4 = 0xF#4 then some (.movff fs (hi.extractLsb' 0 4 ++ lo)) else none
  | .lfsr ff kHigh => if hi = 0xF0#8 then some (.lfsr ff (kHigh ++ lo)) else none
  | .call s kLow => if hi.extractLsb' 4 4 = 0xF#4 then some (.call (hi.extractLsb' 0 4 ++ lo ++ kLow) s) else none
  | .goto kLow => if hi.extractLsb' 4 4 = 0xF#4 then some (.goto (hi.extractLsb' 0 4 ++ lo ++ kLow)) else none
  | .one _ | .illegal => none

/-- The outcome of decoding a list of bytes: an instruction with the bytes after it, or a rejection by name. -/
inductive Decoded where
  | ok (i : Instr) (rest : List Byte)
  /-- The first word matches no row (R142). -/
  | illegalInstruction
  /-- The second word of a two-word instruction has not the form of R134. -/
  | malformedSecondWord
  /-- The bytes end before the instruction does. -/
  | truncated
  deriving DecidableEq, Repr

/-- Decode the bytes of program memory in address order, low byte first (R81, R140), on a device with the given
`HAS_SUBFWB_DAW`. -/
def decodeOn (hasSubfwbDaw : Bool) : List Byte → Decoded
  | lo1 :: hi1 :: rest =>
    match decodeFirst hasSubfwbDaw hi1 lo1 with
    | .one i => .ok i rest
    | .illegal => .illegalInstruction
    | first =>
      match rest with
      | lo2 :: hi2 :: rest' =>
        match decodeSecond first hi2 lo2 with
        | some i => .ok i rest'
        | none => .malformedSecondWord
      | _ => .truncated
  | _ => .truncated

/-- Decode on the configured device. -/
def decode (bs : List Byte) : Decoded := decodeOn Config.hasSubfwbDaw bs

/-! ### Encoding (the formats of R121) -/

/-- A word from its two bytes. -/
def mkWord (hi lo : Byte) : IWord := hi ++ lo

/-- Format BYTE_D (R122): opcode 15:10, d 9, a 8, f 7:0. -/
def wordByteD (op : BitVec 6) (f : Byte) (d a : Bool) : IWord :=
  mkWord (op ++ BitVec.ofBool d ++ BitVec.ofBool a) f

/-- Format BYTE (R123): opcode 15:9, a 8, f 7:0. -/
def wordByte (op : BitVec 7) (f : Byte) (a : Bool) : IWord := mkWord (op ++ BitVec.ofBool a) f

/-- Format BIT (R124): opcode 15:12, b 11:9, a 8, f 7:0. -/
def wordBit (op : BitVec 4) (f : Byte) (b : BitVec 3) (a : Bool) : IWord := mkWord (op ++ b ++ BitVec.ofBool a) f

/-- A word whose low twelve bits are an operand: MOVFF, NOP_F and every second word but LFSR's (R121). -/
def word12 (op : BitVec 4) (x : BitVec 12) : IWord := mkWord (op ++ x.extractLsb' 8 4) (x.extractLsb' 0 8)

/-- Format BRANCH11 (R127): opcode 15:11, n 10:0. -/
def wordBranch11 (op : BitVec 5) (n : BitVec 11) : IWord := mkWord (op ++ n.extractLsb' 8 3) (n.extractLsb' 0 8)

/-- The words of an instruction, in address order (R121, spec/opcode_table.json). -/
def encode : Instr → List IWord
  | .movlb k => [mkWord 0x01#8 (0#4 ++ k)]
  | .movlw k => [mkWord 0x0E#8 k]
  | .movf f d a => [wordByteD 0b010100#6 f d a]
  | .movff fs fd => [word12 0xC#4 fs, word12 0xF#4 fd]
  | .movwf f a => [wordByte 0b0110111#7 f a]
  | .swapf f d a => [wordByteD 0b001110#6 f d a]
  | .tblrd => [mkWord 0x00#8 0x08#8]
  | .tblrdPostInc => [mkWord 0x00#8 0x09#8]
  | .tblrdPostDec => [mkWord 0x00#8 0x0A#8]
  | .tblrdPreInc => [mkWord 0x00#8 0x0B#8]
  | .tblwt => [mkWord 0x00#8 0x0C#8]
  | .tblwtPostInc => [mkWord 0x00#8 0x0D#8]
  | .tblwtPostDec => [mkWord 0x00#8 0x0E#8]
  | .tblwtPreInc => [mkWord 0x00#8 0x0F#8]
  | .addlw k => [mkWord 0x0F#8 k]
  | .addwf f d a => [wordByteD 0b001001#6 f d a]
  | .addwfc f d a => [wordByteD 0b001000#6 f d a]
  | .mullw k => [mkWord 0x0D#8 k]
  | .mulwf f a => [wordByte 0b0000001#7 f a]
  | .sublw k => [mkWord 0x08#8 k]
  | .subwf f d a => [wordByteD 0b010111#6 f d a]
  | .subwfb f d a => [wordByteD 0b010110#6 f d a]
  | .clrf f a => [wordByte 0b0110101#7 f a]
  | .decf f d a => [wordByteD 0b000001#6 f d a]
  | .decfsz f d a => [wordByteD 0b001011#6 f d a]
  | .dcfsnz f d a => [wordByteD 0b010011#6 f d a]
  | .incf f d a => [wordByteD 0b001010#6 f d a]
  | .incfsz f d a => [wordByteD 0b001111#6 f d a]
  | .infsnz f d a => [wordByteD 0b010010#6 f d a]
  | .setf f a => [wordByte 0b0110100#7 f a]
  | .andlw k => [mkWord 0x0B#8 k]
  | .andwf f d a => [wordByteD 0b000101#6 f d a]
  | .comf f d a => [wordByteD 0b000111#6 f d a]
  | .cpfseq f a => [wordByte 0b0110001#7 f a]
  | .cpfsgt f a => [wordByte 0b0110010#7 f a]
  | .cpfslt f a => [wordByte 0b0110000#7 f a]
  | .iorlw k => [mkWord 0x09#8 k]
  | .iorwf f d a => [wordByteD 0b000100#6 f d a]
  | .lfsr ff k => [mkWord 0xEE#8 (0#2 ++ ff ++ k.extractLsb' 8 4), mkWord 0xF0#8 (k.extractLsb' 0 8)]
  | .negf f a => [wordByte 0b0110110#7 f a]
  | .rlcf f d a => [wordByteD 0b001101#6 f d a]
  | .rlncf f d a => [wordByteD 0b010001#6 f d a]
  | .rrcf f d a => [wordByteD 0b001100#6 f d a]
  | .rrncf f d a => [wordByteD 0b010000#6 f d a]
  | .tstfsz f a => [wordByte 0b0110011#7 f a]
  | .xorlw k => [mkWord 0x0A#8 k]
  | .xorwf f d a => [wordByteD 0b000110#6 f d a]
  | .bcf f b a => [wordBit 0x9#4 f b a]
  | .bsf f b a => [wordBit 0x8#4 f b a]
  | .btfsc f b a => [wordBit 0xB#4 f b a]
  | .btfss f b a => [wordBit 0xA#4 f b a]
  | .btg f b a => [wordBit 0x7#4 f b a]
  | .bc n => [mkWord 0xE2#8 n]
  | .bn n => [mkWord 0xE6#8 n]
  | .bnc n => [mkWord 0xE3#8 n]
  | .bnn n => [mkWord 0xE7#8 n]
  | .bnov n => [mkWord 0xE5#8 n]
  | .bnz n => [mkWord 0xE1#8 n]
  | .bov n => [mkWord 0xE4#8 n]
  | .bz n => [mkWord 0xE0#8 n]
  | .bra n => [wordBranch11 0b11010#5 n]
  | .call k s => [mkWord (0b1110110#7 ++ BitVec.ofBool s) (k.extractLsb' 0 8), word12 0xF#4 (k.extractLsb' 8 12)]
  | .clrwdt => [mkWord 0x00#8 0x04#8]
  | .goto k => [mkWord 0xEF#8 (k.extractLsb' 0 8), word12 0xF#4 (k.extractLsb' 8 12)]
  | .nop => [mkWord 0x00#8 0x00#8]
  | .nopF x => [word12 0xF#4 x]
  | .pop => [mkWord 0x00#8 0x06#8]
  | .push => [mkWord 0x00#8 0x05#8]
  | .rcall n => [wordBranch11 0b11011#5 n]
  | .reset => [mkWord 0x00#8 0xFF#8]
  | .retfie s => [mkWord 0x00#8 (0b0001000#7 ++ BitVec.ofBool s)]
  | .retlw k => [mkWord 0x0C#8 k]
  | .ret s => [mkWord 0x00#8 (0b0001001#7 ++ BitVec.ofBool s)]
  | .sleep => [mkWord 0x00#8 0x03#8]
  | .subfwb f d a => [wordByteD 0b010101#6 f d a]
  | .daw => [mkWord 0x00#8 0x07#8]

/-- The bytes of words in address order, the low byte of each word first (R81). -/
def wordBytes : List IWord → List Byte
  | [] => []
  | x :: xs => x.lo :: x.hi :: wordBytes xs

/-- The bytes of an instruction as program memory stores them. -/
def encodeBytes (i : Instr) : List Byte := wordBytes (encode i)

/-! ### The opcode table (R140) -/

/-- One row of spec/opcode_table.json: a first word `x` is the row's when `x &&& mask = pattern`. -/
structure OpcodeRow where
  mnemonic : String
  mask : Nat
  pattern : Nat
  deriving DecidableEq, Repr

/-- The rows of spec/40_data_movement.md. -/
def rowsDataMovement : List OpcodeRow := [
  ⟨"MOVLB", 0xFFF0, 0x0100⟩,
  ⟨"MOVLW", 0xFF00, 0x0E00⟩,
  ⟨"MOVF", 0xFC00, 0x5000⟩,
  ⟨"MOVFF", 0xF000, 0xC000⟩,
  ⟨"MOVWF", 0xFE00, 0x6E00⟩,
  ⟨"SWAPF", 0xFC00, 0x3800⟩,
  ⟨"TBLRD*", 0xFFFF, 0x0008⟩,
  ⟨"TBLRD*+", 0xFFFF, 0x0009⟩,
  ⟨"TBLRD*-", 0xFFFF, 0x000A⟩,
  ⟨"TBLRD+*", 0xFFFF, 0x000B⟩,
  ⟨"TBLWT*", 0xFFFF, 0x000C⟩,
  ⟨"TBLWT*+", 0xFFFF, 0x000D⟩,
  ⟨"TBLWT*-", 0xFFFF, 0x000E⟩,
  ⟨"TBLWT+*", 0xFFFF, 0x000F⟩]

/-- The rows of spec/41_arithmetic.md. -/
def rowsArithmetic : List OpcodeRow := [
  ⟨"ADDLW", 0xFF00, 0x0F00⟩,
  ⟨"ADDWF", 0xFC00, 0x2400⟩,
  ⟨"ADDWFC", 0xFC00, 0x2000⟩,
  ⟨"MULLW", 0xFF00, 0x0D00⟩,
  ⟨"MULWF", 0xFE00, 0x0200⟩,
  ⟨"SUBLW", 0xFF00, 0x0800⟩,
  ⟨"SUBWF", 0xFC00, 0x5C00⟩,
  ⟨"SUBWFB", 0xFC00, 0x5800⟩,
  ⟨"CLRF", 0xFE00, 0x6A00⟩,
  ⟨"DECF", 0xFC00, 0x0400⟩,
  ⟨"DECFSZ", 0xFC00, 0x2C00⟩,
  ⟨"DCFSNZ", 0xFC00, 0x4C00⟩,
  ⟨"INCF", 0xFC00, 0x2800⟩,
  ⟨"INCFSZ", 0xFC00, 0x3C00⟩,
  ⟨"INFSNZ", 0xFC00, 0x4800⟩,
  ⟨"SETF", 0xFE00, 0x6800⟩]

/-- The rows of spec/42_logic_compare.md. -/
def rowsLogic : List OpcodeRow := [
  ⟨"ANDLW", 0xFF00, 0x0B00⟩,
  ⟨"ANDWF", 0xFC00, 0x1400⟩,
  ⟨"COMF", 0xFC00, 0x1C00⟩,
  ⟨"CPFSEQ", 0xFE00, 0x6200⟩,
  ⟨"CPFSGT", 0xFE00, 0x6400⟩,
  ⟨"CPFSLT", 0xFE00, 0x6000⟩,
  ⟨"IORLW", 0xFF00, 0x0900⟩,
  ⟨"IORWF", 0xFC00, 0x1000⟩,
  ⟨"LFSR", 0xFFC0, 0xEE00⟩,
  ⟨"NEGF", 0xFE00, 0x6C00⟩,
  ⟨"RLCF", 0xFC00, 0x3400⟩,
  ⟨"RLNCF", 0xFC00, 0x4400⟩,
  ⟨"RRCF", 0xFC00, 0x3000⟩,
  ⟨"RRNCF", 0xFC00, 0x4000⟩,
  ⟨"TSTFSZ", 0xFE00, 0x6600⟩,
  ⟨"XORLW", 0xFF00, 0x0A00⟩,
  ⟨"XORWF", 0xFC00, 0x1800⟩]

/-- The rows of spec/43_bit_oriented.md. -/
def rowsBits : List OpcodeRow := [
  ⟨"BCF", 0xF000, 0x9000⟩,
  ⟨"BSF", 0xF000, 0x8000⟩,
  ⟨"BTFSC", 0xF000, 0xB000⟩,
  ⟨"BTFSS", 0xF000, 0xA000⟩,
  ⟨"BTG", 0xF000, 0x7000⟩]

/-- The rows of spec/44_control.md. -/
def rowsControl : List OpcodeRow := [
  ⟨"BC", 0xFF00, 0xE200⟩,
  ⟨"BN", 0xFF00, 0xE600⟩,
  ⟨"BNC", 0xFF00, 0xE300⟩,
  ⟨"BNN", 0xFF00, 0xE700⟩,
  ⟨"BNOV", 0xFF00, 0xE500⟩,
  ⟨"BNZ", 0xFF00, 0xE100⟩,
  ⟨"BOV", 0xFF00, 0xE400⟩,
  ⟨"BZ", 0xFF00, 0xE000⟩,
  ⟨"BRA", 0xF800, 0xD000⟩,
  ⟨"CALL", 0xFE00, 0xEC00⟩,
  ⟨"CLRWDT", 0xFFFF, 0x0004⟩,
  ⟨"GOTO", 0xFF00, 0xEF00⟩,
  ⟨"NOP", 0xFFFF, 0x0000⟩,
  ⟨"NOP", 0xF000, 0xF000⟩,
  ⟨"POP", 0xFFFF, 0x0006⟩,
  ⟨"PUSH", 0xFFFF, 0x0005⟩,
  ⟨"RCALL", 0xF800, 0xD800⟩,
  ⟨"RESET", 0xFFFF, 0x00FF⟩,
  ⟨"RETFIE", 0xFFFE, 0x0010⟩,
  ⟨"RETLW", 0xFF00, 0x0C00⟩,
  ⟨"RETURN", 0xFFFE, 0x0012⟩,
  ⟨"SLEEP", 0xFFFF, 0x0003⟩]

/-- The rows of spec/45_secondary_only.md. -/
def rowsSecondary : List OpcodeRow := [
  ⟨"SUBFWB", 0xFC00, 0x5400⟩,
  ⟨"DAW", 0xFFFF, 0x0007⟩]

/-- The 76 rows. -/
def opcodeRows : List OpcodeRow :=
  rowsDataMovement ++ rowsArithmetic ++ rowsLogic ++ rowsBits ++ rowsControl ++ rowsSecondary

/-- Whether a first word is a row's, with the table's constraint on LFSR (word 1 bits 5:4 are not 11). -/
def OpcodeRow.owns (r : OpcodeRow) (x : IWord) : Bool :=
  Nat.land x.toNat r.mask == r.pattern && !(r.pattern == 0xEE00 && Nat.land x.toNat 0x30 == 0x30)

/-- The mnemonic a first word decodes to, if any. -/
def First.mnemonic? : First → Option String
  | .one i => some i.mnemonic
  | .movff _ => some "MOVFF"
  | .lfsr _ _ => some "LFSR"
  | .call _ _ => some "CALL"
  | .goto _ => some "GOTO"
  | .illegal => none

/-! ### The host's question -/

/-- The bytes, in address order, of an instruction whose bits are `w` with bit 0 the least significant bit of the first
word; bits at `nbits` and above are 0. Two words, the longest instruction. -/
def tableBytes (nbits w : Nat) : List Byte :=
  let v := w % 2 ^ nbits
  [BitVec.ofNat 8 v, BitVec.ofNat 8 (v / 2 ^ 8), BitVec.ofNat 8 (v / 2 ^ 16), BitVec.ofNat 8 (v / 2 ^ 24)]

/-- The instruction the decoder reads from a word numbered as spec/opcode_table.json numbers it. -/
def decodeTableWord (nbits w : Nat) : Option Instr :=
  match decode (tableBytes nbits w) with
  | .ok i _ => some i
  | _ => none

end Sys2Proof
end

