-- ==== Sys2Proof/Machine/State.lean ====
section
/-! DEFINITION. Everything the spec gives the machine, as plain data; the reasons a step can stop; the state after
reset (spec/10_state.md). -/

namespace Sys2Proof.Machine

/-! ### Small register types -/

/-- The flags of STATUS (R30): bit 4 N, 3 OV, 2 Z, 1 DC, 0 C. -/
structure Status where
  n : Bool
  ov : Bool
  z : Bool
  dc : Bool
  c : Bool
  deriving DecidableEq, Repr

/-- INTCON (R62), bit 7 first. -/
structure Intcon where
  gie : Bool
  peie : Bool
  tmr0ie : Bool
  int0ie : Bool
  rbie : Bool
  tmr0if : Bool
  int0if : Bool
  rbif : Bool
  deriving DecidableEq, Repr

/-- RCON (R37, R62): bit 7 IPEN, 4 RI, 3 TO, 2 PD, 1 POR, 0 BOR. `to_` is the bit TO. -/
structure Rcon where
  ipen : Bool
  ri : Bool
  to_ : Bool
  pd : Bool
  por : Bool
  bor : Bool
  deriving DecidableEq, Repr

/-- The fast register stack (R46): WS, STATUSS, BSRS. -/
structure FastStack where
  ws : Byte
  statuss : Status
  bsrs : BitVec 4
  deriving DecidableEq, Repr

/-- The three pointers (`N_FSR` = 3, R7, R23). -/
inductive FsrIndex where
  | f0 | f1 | f2
  deriving DecidableEq, Repr

/-- Interrupt priority levels (R314). -/
inductive IrqLevel where
  | high | low
  deriving DecidableEq, Repr

/-- A byte-addressed memory in its canonical form (`Memory.wf` in Machine/Ops.lean): addresses strictly rising, no entry
equal to what an unlisted address reads as. -/
abbrev Memory := List Host.Cell

/-! ### The environment (R12, R104 (c), R312, R320) -/

/-- The resets that come from outside the core (R350); the watchdog's is `EnvMove.wdtTimeout`. -/
inductive ExternalReset where
  | powerOn | brownOut | mclr
  deriving DecidableEq, Repr

/-- What the environment does at one instruction boundary. A flag or mask bit that is set requests the interrupt flag
(R312: the environment may set any `xIF` and never clears one); `rcif` and `txif` follow their peripheral, so they may also
be cleared. -/
structure EnvMove where
  reset : Option ExternalReset := none
  wdtTicks : Nat := 0
  wdtTimeout : Bool := false
  tmr0if : Bool := false
  int0if : Bool := false
  rbif : Bool := false
  int1if : Bool := false
  int2if : Bool := false
  pir1 : Byte := 0#8
  pir2 : Byte := 0#8
  rcif : Option Bool := none
  txif : Option Bool := none
  deriving DecidableEq, Repr

/-! ### The state -/

/-- The machine (spec/10_state.md, INVENTORY.md '## State'). Each field names its rule. -/
structure State where
  /-- Byte address of the first word of the next instruction (R24). -/
  pc : PAddr
  /-- PCLATH (R26). -/
  pclath : Byte
  /-- PCLATU<4:0> (R26). -/
  pclatu : BitVec 5
  /-- WREG (R20). -/
  w : Byte
  /-- STATUS (R30). -/
  status : Status
  /-- BSR<3:0> (R22). -/
  bsr : BitVec 4
  /-- FSR0 (R23). -/
  fsr0 : BitVec 12
  /-- FSR1 (R23). -/
  fsr1 : BitVec 12
  /-- FSR2 (R23). -/
  fsr2 : BitVec 12
  /-- PRODH (R28). -/
  prodh : Byte
  /-- PRODL (R28). -/
  prodl : Byte
  /-- TBLPTRU<5:0>:TBLPTRH:TBLPTRL (R29). -/
  tblptr : BitVec 22
  /-- TABLAT (R29). -/
  tablat : Byte
  /-- STKPTR<4:0>: the index of the top entry, 0 when the stack is empty (R41). -/
  sp : BitVec 5
  /-- STKFUL (R41). -/
  stkful : Bool
  /-- STKUNF (R41). -/
  stkunf : Bool
  /-- STACK[1..31]; entry n stands at index n - 1 (R40). -/
  stack : Vector (BitVec 21) 31
  /-- WS, STATUSS, BSRS (R46). -/
  fast : FastStack
  /-- HOLD[0..7], the table-write holding latches (R55, R101). -/
  hold : Vector Byte 8
  /-- INTCON (R62). -/
  intcon : Intcon
  /-- INTCON2 (R62). -/
  intcon2 : Byte
  /-- INTCON3 (R62). -/
  intcon3 : Byte
  /-- RCON (R62). -/
  rcon : Rcon
  /-- PIR1 (R62). -/
  pir1 : Byte
  /-- PIE1 (R62). -/
  pie1 : Byte
  /-- IPR1 (R62). -/
  ipr1 : Byte
  /-- PIR2 (R62). -/
  pir2 : Byte
  /-- PIE2 (R62). -/
  pie2 : Byte
  /-- IPR2 (R62). -/
  ipr2 : Byte
  /-- isr_level: the priority levels in service, top first (R55, R316, R319). -/
  isrLevel : List IrqLevel
  /-- The core is in standby (R281, R336). -/
  sleeping : Bool
  /-- The watchdog counter and postscaler, as one count since the last clear (R55, R270; log 18). -/
  wdt : Nat
  /-- flash_write_busy (R55): never set here, since no in-scope operation starts a write cycle (R363, D19). -/
  flashWriteBusy : Bool
  /-- Data memory cells: general-purpose RAM, and the byte last stored to each peripheral register (R83, R63). -/
  data : Memory
  /-- Program memory (R81). -/
  prog : Memory
  /-- The model's own field: how many free values have been drawn (R11 `draw`; log 9). -/
  draws : Nat
  /-- The model's own field: the environment's moves, the head at the coming instruction boundary (R12; log 10). -/
  env : List EnvMove
  deriving DecidableEq, Repr

/-! ### How a step can stop -/

/-- The model faults of R311. A fault ends the run and commits nothing of the faulting instruction. All of them are safe:
the model stops where a device continues. -/
inductive Fault where
  /-- `push` with SP + 1 at or above `STACK_DEPTH` (R43, D14); raised by CALL, RCALL, PUSH and interrupt entry. Safe. -/
  | stackOverflow
  /-- `pop`, or POP, with SP = 0 (R44, R274, D14); raised by RETURN, RETLW, RETFIE, POP. Safe. -/
  | stackUnderflow
  /-- A read or write of TOSU, TOSH or TOSL with SP = 0 (R42, D37); raised by a data access. Safe. -/
  | stackEmptyAccess
  /-- POSTINC, POSTDEC or PREINC through FSRn lands on FSRnL or FSRnH of the same n (R97, D16). Safe. -/
  | indirectOnOwnFSR
  /-- An instruction word is fetched at or above `PROG_MEM_BYTES` (R82, D33); raised by the fetch. Safe. -/
  | fetchOutsideProgram
  /-- A table read at or above `PROG_MEM_BYTES` (R101, D19); raised by the four TBLRD. Safe. -/
  | tableReadOutside
  /-- A data write to EECON2 (R107, D19): the step of a programming sequence no source describes. Safe. -/
  | selfProgramming
  /-- The second word of a two-word instruction has not its form (R134, D13); raised by the fetch. Safe. -/
  | malformedSecondWord
  /-- The first word matches no row of the opcode table (R142, D3, D35); raised by the fetch, and by the meaning of an LFSR
  term with `ff = 3`, which no word decodes to. Safe. -/
  | illegalInstruction
  /-- MOVFF with `fd` = PCL, TOSU, TOSH or TOSL (R163, D29). Safe. -/
  | movffForbiddenDestination
  /-- MOVFF with `fs` = PCL (R163, D29). Safe. -/
  | movffPclSource
  deriving DecidableEq, Repr

/-- The reasons the model gives an instruction no meaning. -/
inductive Refusal where
  /-- An instruction of the table that has no meaning yet, by its mnemonic; raised by `exec`'s arm only. Safe. -/
  | notModelled (mnemonic : String)
  deriving DecidableEq, Repr

/-! ### Reset (R70, R351) -/

/-- All five flags clear. -/
def Status.zero : Status := ⟨false, false, false, false, false⟩

/-- INTCON after power-on (R70: 0000 000x; RBIF DESIGN CHOICE 0, log 5). -/
def Intcon.reset : Intcon := ⟨false, false, false, false, false, false, false, false⟩

/-- RCON after power-on (R70: 0--1 1100; PRESUMED, log 5). -/
def Rcon.reset : Rcon := ⟨false, true, true, true, false, false⟩

/-- The bits of PIR1, PIE1 and IPR1 that exist: all with `HAS_PORTD_E`, else all but PSP (R62). -/
def pspMask : Byte := if Config.hasPortDE then 0xFF#8 else 0x7F#8

/-- The state right after power-on (R70, column "model"). Cells R70 calls unwritten hold the values of log 1. -/
def State.reset : State where
  pc := Config.resetVector
  pclath := 0#8
  pclatu := 0#5
  w := 0#8
  status := Status.zero
  bsr := 0#4
  fsr0 := 0#12
  fsr1 := 0#12
  fsr2 := 0#12
  prodh := 0#8
  prodl := 0#8
  tblptr := 0#22
  tablat := 0#8
  sp := 0#5
  stkful := false
  stkunf := false
  stack := Vector.replicate 31 0#21
  fast := ⟨0#8, Status.zero, 0#4⟩
  hold := Vector.replicate 8 0#8
  intcon := Intcon.reset
  intcon2 := 0xF5#8
  intcon3 := 0xC0#8
  rcon := Rcon.reset
  pir1 := 0#8
  pie1 := 0#8
  ipr1 := pspMask
  pir2 := 0#8
  pie2 := 0#8
  ipr2 := 0x1F#8
  isrLevel := []
  sleeping := false
  wdt := 0
  flashWriteBusy := false
  data := []
  prog := []
  draws := 0
  env := []

end Sys2Proof.Machine
end

