-- ==== Sys2Proof/Machine/Flags.lean ====
section
/-! DEFINITION. Flag computations and the arithmetic of one byte (spec/10_state.md R31 to R34, spec/41_arithmetic.md,
spec/42_logic_compare.md R230 to R233, spec/45_secondary_only.md R302). -/

namespace Sys2Proof.Machine

/-- `setflags{...}` (R31): the flags an instruction writes, with their values; `none` leaves a flag as it is. -/
structure FlagWrite where
  c : Option Bool := none
  dc : Option Bool := none
  z : Option Bool := none
  ov : Option Bool := none
  n : Option Bool := none
  deriving DecidableEq, Repr

/-- An instruction whose status list is "none". -/
def FlagWrite.nothing : FlagWrite := {}

/-- The instruction affects at least one of the five flags (R31's condition on STATUS as a destination). -/
def FlagWrite.affects (fw : FlagWrite) : Bool :=
  fw.c.isSome || fw.dc.isSome || fw.z.isSome || fw.ov.isSome || fw.n.isSome

/-- Write exactly the flags named (R31). -/
def Status.setFlags (st : Status) (fw : FlagWrite) : Status where
  n := fw.n.getD st.n
  ov := fw.ov.getD st.ov
  z := fw.z.getD st.z
  dc := fw.dc.getD st.dc
  c := fw.c.getD st.c

/-- STATUS as a byte (R30): bits 7:5 read 0. -/
def Status.toByte (st : Status) : Byte :=
  0#3 ++ BitVec.ofBool st.n ++ BitVec.ofBool st.ov ++ BitVec.ofBool st.z ++ BitVec.ofBool st.dc ++ BitVec.ofBool st.c

/-- A data write to STATUS (R91): bits 4:0; bits 7:5 are ignored. -/
def Status.ofByte (v : Byte) : Status :=
  ⟨v.getLsbD 4, v.getLsbD 3, v.getLsbD 2, v.getLsbD 1, v.getLsbD 0⟩

/-! ### Arithmetic -/

/-- `add8(a, b, cin)` (R32): the sum and all five flags. -/
def add8 (a b : Byte) (cin : Bool) : Byte × FlagWrite :=
  let s := a.toNat + b.toNat + cin.toNat
  let r := BitVec.ofNat 8 s
  (r,
    { c := some (decide (256 ≤ s))
      dc := some (decide (16 ≤ a.toNat % 16 + b.toNat % 16 + cin.toNat))
      z := some (r == 0#8)
      ov := some (a.msb == b.msb && r.msb != a.msb)
      n := some r.msb })

/-- `sub8(a, b, bin)` (R33): `add8(a, ~b, 1 - bin)`. -/
def sub8 (a b : Byte) (bin : Bool) : Byte × FlagWrite := add8 a (~~~b) (!bin)

/-- The flags of a logic or move result (R34): Z and N. -/
def flagsZN (r : Byte) : FlagWrite := { z := some (r == 0#8), n := some r.msb }

/-- The 16-bit unsigned product (R193, D18). -/
def mul8 (a b : Byte) : BitVec 16 := BitVec.ofNat 16 (a.toNat * b.toNat)

/-- `daw(w, c, dc)` (R302, the spec's default of the parameter): the adjusted byte and the new C. -/
def daw8 (w : Byte) (c dc : Bool) : Byte × Bool :=
  let loAdj := decide (9 < w.toNat % 16) || dc
  let t := w.toNat + (if loAdj then 6 else 0)
  let hiAdj := decide (9 < t / 16) || c
  (BitVec.ofNat 8 (t + (if hiAdj then 0x60 else 0)), hiAdj)

/-! ### Rotates, nibble swap, single bits -/

/-- RLCF (R230): `v[6:0] ++ C`, and the bit rotated out. -/
def rotLeftCarry (v : Byte) (c : Bool) : Byte × FlagWrite :=
  let r : Byte := v.extractLsb' 0 7 ++ BitVec.ofBool c
  (r, { flagsZN r with c := some (v.getLsbD 7) })

/-- RLNCF (R231): `v[6:0] ++ v[7]`. -/
def rotLeft (v : Byte) : Byte × FlagWrite :=
  let r : Byte := v.extractLsb' 0 7 ++ v.extractLsb' 7 1
  (r, flagsZN r)

/-- RRCF (R232): `C ++ v[7:1]`, and the bit rotated out. -/
def rotRightCarry (v : Byte) (c : Bool) : Byte × FlagWrite :=
  let r : Byte := BitVec.ofBool c ++ v.extractLsb' 1 7
  (r, { flagsZN r with c := some (v.getLsbD 0) })

/-- RRNCF (R233): `v[0] ++ v[7:1]`. -/
def rotRight (v : Byte) : Byte × FlagWrite :=
  let r : Byte := v.extractLsb' 0 1 ++ v.extractLsb' 1 7
  (r, flagsZN r)

/-- SWAPF (R165): `v[3:0] ++ v[7:4]`. -/
def swapNibbles (v : Byte) : Byte := v.extractLsb' 0 4 ++ v.extractLsb' 4 4

/-- The byte with bit `b` alone set: `1 << b` (R250 to R254). -/
def bitMask (b : BitVec 3) : Byte := BitVec.twoPow 8 b.toNat

end Sys2Proof.Machine
end

