-- ==== Sys2Proof/Machine/Ops.lean ====
section
/-! DEFINITION. The operations every meaning shares: byte memories, program memory, the program counter, the return stack,
the fast register stack, table access, taking an interrupt and returning from one, reset. -/

namespace Sys2Proof.Machine

/-! ### Byte memories -/

/-- The byte at an address; an unlisted address reads as `fill`. -/
def Memory.read (fill : Byte) : Memory → Nat → Byte
  | [], _ => fill
  | (b, v) :: m, a => if a = b then v else Memory.read fill m a

/-- Store a byte and keep the canonical form: writing `fill` removes the entry. -/
def Memory.write (fill : Byte) : Memory → Nat → Byte → Memory
  | [], a, v => if v = fill then [] else [(a, v)]
  | (b, u) :: m, a, v =>
    if a < b then (if v = fill then (b, u) :: m else (a, v) :: (b, u) :: m)
    else if a = b then (if v = fill then m else (a, v) :: m)
    else (b, u) :: Memory.write fill m a v

/-- The canonical form: addresses strictly rising, no entry equal to `fill`. -/
abbrev Memory.wf (fill : Byte) (m : Memory) : Prop :=
  m.Pairwise (fun x y => x.1 < y.1) ∧ ∀ c ∈ m, c.2 ≠ fill

/-- `RAM[A]` (R11, R83): the storage cell behind a data address. -/
def State.ramAt (s : State) (a : DAddr) : Byte := s.data.read Config.dataFill a.toNat

/-- Store to the cell behind a data address. -/
def State.setRam (s : State) (a : DAddr) (v : Byte) : State :=
  { s with data := s.data.write Config.dataFill a.toNat v }

/-- `PMRead(a, 1)` (R81). -/
def State.progByte (s : State) (a : Nat) : Byte := s.prog.read Config.progFill a

/-- `PMRead(a, 2)` (R81): little-endian. -/
def State.progWord (s : State) (a : Nat) : IWord := s.progByte (a + 1) ++ s.progByte a

/-- Place a byte of program memory (the host interface only: no instruction does it, R107). -/
def State.setProgByte (s : State) (a : Nat) (v : Byte) : State :=
  { s with prog := s.prog.write Config.progFill a v }

/-! ### The program counter -/

/-- Clear bit 0: every value loaded into the PC has it cleared (R27). -/
def evenPc (v : PAddr) : PAddr := v &&& 0x1FFFFE#21

/-- `pc <- target` (R25, R27). -/
def State.jump (s : State) (target : PAddr) : State := { s with pc := evenPc target }

/-- The next address after `n` bytes, modulo 2^21 (R25, R27). -/
def State.advance (s : State) (n : Nat) : State := s.jump (s.pc + BitVec.ofNat 21 n)

/-- The relative target `pc + 2 + 2 * sext(n)` (R131). -/
def relTarget {k : Nat} (pc : PAddr) (n : BitVec k) : PAddr := pc + 2#21 + 2#21 * n.signExtend 21

/-- The absolute target `2 * k` of CALL and GOTO (R132). -/
def absTarget (k : BitVec 20) : PAddr := k ++ 0#1

/-! ### The return stack (R40 to R45) -/

/-- `STACK[i]` for an index 1 to 31 (R40). -/
def State.stackEntry (s : State) (i : BitVec 5) : BitVec 21 := (s.stack[i.toNat - 1]?).getD 0#21

/-- `STACK[i] <- v` for an index 1 to 31; entry 0 does not exist (R40). -/
def State.setStackEntry (s : State) (i : BitVec 5) (v : BitVec 21) : State :=
  if i = 0#5 then s else { s with stack := s.stack.setIfInBounds (i.toNat - 1) v }

/-- `push(v)` (R43): the pointer moves first. -/
def push (v : BitVec 21) (s : State) : Except Fault State :=
  if Config.stackDepth ≤ s.sp.toNat + 1 then .error .stackOverflow
  else .ok ({ s with sp := s.sp + 1#5 }.setStackEntry (s.sp + 1#5) v)

/-- `pop()` (R44): the top entry, and the state with it removed. -/
def pop (s : State) : Except Fault (BitVec 21 × State) :=
  if s.sp = 0#5 then .error .stackUnderflow else .ok (s.stackEntry s.sp, { s with sp := s.sp - 1#5 })

/-! ### The fast register stack (R46, R47) -/

/-- `WS <- W; STATUSS <- STATUS; BSRS <- BSR`. -/
def State.saveFast (s : State) : State := { s with fast := ⟨s.w, s.status, s.bsr⟩ }

/-- `W <- WS; STATUS <- STATUSS; BSR <- BSRS`. -/
def State.restoreFast (s : State) : State :=
  { s with w := s.fast.ws, status := s.fast.statuss, bsr := s.fast.bsrs }

/-- The effect of a set `s` bit on CALL. -/
def State.saveFastIf (s : State) (fast : Bool) : State := if fast then s.saveFast else s

/-- The effect of a set `s` bit on RETURN and RETFIE. -/
def State.restoreFastIf (s : State) (fast : Bool) : State := if fast then s.restoreFast else s

/-! ### Table access (R29, R101) -/

/-- `tblread()`: TABLAT from program memory. -/
def tableRead (s : State) : Except Fault State :=
  if Config.progMemBytes ≤ s.tblptr.toNat then .error .tableReadOutside
  else .ok { s with tablat := s.progByte s.tblptr.toNat }

/-- `tblwrite()`: TABLAT to a holding latch; program memory is unchanged. -/
def State.tableWrite (s : State) : State :=
  { s with hold := s.hold.setIfInBounds (s.tblptr.toNat % 8) s.tablat }

/-- TBLPTR by one up, modulo 2^22. -/
def State.tblptrInc (s : State) : State := { s with tblptr := s.tblptr + 1#22 }

/-- TBLPTR by one down, modulo 2^22. -/
def State.tblptrDec (s : State) : State := { s with tblptr := s.tblptr - 1#22 }

/-! ### Interrupt entry and return (R316, R318) -/

/-- The vector of a level (R317). -/
def IrqLevel.vector : IrqLevel → PAddr
  | .high => Config.highVector
  | .low => Config.lowVector

/-- Set or clear the global enable bit of a level: INTCON bit 7 for high, bit 6 for low (R38). -/
def Intcon.setEnable (i : Intcon) (lvl : IrqLevel) (on : Bool) : Intcon :=
  match lvl with
  | .high => { i with gie := on }
  | .low => { i with peie := on }

/-- Taking an interrupt, the one entry of this hardware (R316): the return address goes to the return stack; W, STATUS
and BSR to the fast register stack; the level's enable bit is cleared; the level is in service; the pc is at its vector. -/
def takeInterrupt (lvl : IrqLevel) (s : State) : Except Fault State :=
  match push s.pc { s with sleeping := false } with
  | .error e => .error e
  | .ok s1 =>
    .ok { s1.saveFast with
          intcon := s1.intcon.setEnable lvl false
          isrLevel := lvl :: s1.isrLevel
          pc := lvl.vector }

/-- The enable bit RETFIE sets again and the levels left in service (R278, R318): that of the level in service, GIE/GIEH
when none is. -/
def State.leaveIsr (s : State) : State :=
  match s.isrLevel with
  | [] => { s with intcon := s.intcon.setEnable .high true }
  | lvl :: rest => { s with intcon := s.intcon.setEnable lvl true, isrLevel := rest }

/-- Returning from an interrupt (R278, R318). -/
def returnFromInterrupt (fast : Bool) (s : State) : Except Fault State :=
  match pop s with
  | .error e => .error e
  | .ok (v, s1) => .ok ((s1.jump v).leaveIsr.restoreFastIf fast)

/-! ### Reset (R70, R350 to R352) -/

/-- RCON after a reset: IPEN = 0, bits 4:0 as given (R70, column "model"). -/
def Rcon.ofDraw (v : Byte) : Rcon :=
  ⟨false, v.getLsbD 4, v.getLsbD 3, v.getLsbD 2, v.getLsbD 1, v.getLsbD 0⟩

/-- The RESET instruction, the external pin and the watchdog: every cell R70 gives a value has it; RCON bits 4:0, RBIF and
HOLD are free values; the cells its second column marks "u" keep their contents, as R71 allows (log 6). The program, the
environment's moves and the draw counter stay. -/
def State.warmReset (s : State) : State :=
  { s with
    pc := Config.resetVector
    pclath := 0#8
    pclatu := 0#5
    bsr := 0#4
    tblptr := 0#22
    tablat := 0#8
    sp := 0#5
    stkful := false
    stkunf := false
    hold := Vector.ofFn fun i => Config.draw (s.draws + 2 + i)
    intcon := { Intcon.reset with rbif := (Config.draw (s.draws + 1)).getLsbD 0 }
    intcon2 := 0xF5#8
    intcon3 := 0xC0#8
    rcon := Rcon.ofDraw (Config.draw s.draws)
    pir1 := 0#8
    pie1 := 0#8
    ipr1 := pspMask
    pir2 := 0#8
    pie2 := 0#8
    ipr2 := 0x1F#8
    isrLevel := []
    sleeping := false
    wdt := 0
    flashWriteBusy := false
    draws := s.draws + 10 }

/-- Power-on: the state after reset, with the program in place (log 7). -/
def State.powerOnReset (s : State) : State :=
  { State.reset with prog := s.prog, env := s.env, draws := s.draws }

/-- Brown-out: as power-on (PRESUMED, log 7), with RCON bits 4:0 and RBIF drawn (R350, R351). -/
def State.brownOutReset (s : State) : State :=
  { s.powerOnReset with
    rcon := Rcon.ofDraw (Config.draw s.draws)
    intcon := { Intcon.reset with rbif := (Config.draw (s.draws + 1)).getLsbD 0 }
    draws := s.draws + 2 }

/-- The watchdog time-out while awake: a reset with TO = 0 (R332, R37; DEDUCED, log 21). -/
def State.watchdogReset (s : State) : State :=
  { s.warmReset with rcon := { s.warmReset.rcon with to_ := false } }

/-- A reset from outside the core, by its kind (R350). -/
def State.externalReset (s : State) : ExternalReset → State
  | .powerOn => s.powerOnReset
  | .brownOut => s.brownOutReset
  | .mclr => s.warmReset

/-! ### Outcomes -/

/-- The outcome of an operation that may stop with a fault; a fault commits nothing (R311). -/
def outcome : Except Fault State → Host.Outcome State Fault Refusal
  | .ok s => .next s
  | .error e => .fault e

end Sys2Proof.Machine
end

