-- ==== Sys2Proof/Machine/SfrMap.lean ====
section
/-! DEFINITION. The special-function register map F80h to FFFh, transcribed from spec/10_state.md R60, and what each of the
4096 data addresses is (spec/20_memory.md R83). -/

namespace Sys2Proof.Machine

/-- The five indirect windows of a pointer (R50). -/
inductive WindowKind where
  | indf | postinc | postdec | preinc | plusw
  deriving DecidableEq, Repr

/-- The peripheral registers (class `periph` of R60), by name. -/
inductive Periph where
  | tmr0h | tmr0l | t0con | osccon | lvdcon | wdtcon | tmr1h | tmr1l
  | t1con | tmr2 | pr2 | t2con | sspbuf | sspadd | sspstat | sspcon1
  | sspcon2 | adresh | adresl | adcon0 | adcon1 | ccpr1h | ccpr1l | ccp1con
  | ccpr2h | ccpr2l | ccp2con | tmr3h | tmr3l | t3con | spbrg | rcreg
  | txreg | txsta | rcsta | eeadr | eedata | eecon2 | eecon1 | trise
  | trisd | trisc | trisb | trisa | late | latd | latc | latb
  | lata | porte | portd | portc | portb | porta
  deriving DecidableEq, Repr

/-- The names of the map (R60): core registers, interrupt-control registers, peripherals, indirect windows. -/
inductive Sfr where
  | tosu | tosh | tosl | stkptr | pclatu | pclath | pcl | tblptru
  | tblptrh | tblptrl | tablat | prodh | prodl | intcon | intcon2 | intcon3
  | wreg | bsr | status | rcon | ipr2 | pir2 | pie2 | ipr1
  | pir1 | pie1
  | fsrl (n : FsrIndex)
  | fsrh (n : FsrIndex)
  | periph (p : Periph)
  | window (k : WindowKind) (n : FsrIndex)
  deriving DecidableEq, Repr

/-- FF0h to FFFh. -/
def sfrRowsFF0 : List (Nat × Sfr) := [
  (0xFFF, .tosu), (0xFFE, .tosh), (0xFFD, .tosl), (0xFFC, .stkptr),
  (0xFFB, .pclatu), (0xFFA, .pclath), (0xFF9, .pcl), (0xFF8, .tblptru),
  (0xFF7, .tblptrh), (0xFF6, .tblptrl), (0xFF5, .tablat), (0xFF4, .prodh),
  (0xFF3, .prodl), (0xFF2, .intcon), (0xFF1, .intcon2), (0xFF0, .intcon3)]

/-- FE0h to FEFh. -/
def sfrRowsFE0 : List (Nat × Sfr) := [
  (0xFEF, .window .indf .f0), (0xFEE, .window .postinc .f0), (0xFED, .window .postdec .f0), (0xFEC, .window .preinc .f0),
  (0xFEB, .window .plusw .f0), (0xFEA, .fsrh .f0), (0xFE9, .fsrl .f0), (0xFE8, .wreg),
  (0xFE7, .window .indf .f1), (0xFE6, .window .postinc .f1), (0xFE5, .window .postdec .f1), (0xFE4, .window .preinc .f1),
  (0xFE3, .window .plusw .f1), (0xFE2, .fsrh .f1), (0xFE1, .fsrl .f1), (0xFE0, .bsr)]

/-- FD0h to FDFh. -/
def sfrRowsFD0 : List (Nat × Sfr) := [
  (0xFDF, .window .indf .f2), (0xFDE, .window .postinc .f2), (0xFDD, .window .postdec .f2), (0xFDC, .window .preinc .f2),
  (0xFDB, .window .plusw .f2), (0xFDA, .fsrh .f2), (0xFD9, .fsrl .f2), (0xFD8, .status),
  (0xFD7, .periph .tmr0h), (0xFD6, .periph .tmr0l), (0xFD5, .periph .t0con), (0xFD3, .periph .osccon),
  (0xFD2, .periph .lvdcon), (0xFD1, .periph .wdtcon), (0xFD0, .rcon)]

/-- FC0h to FCFh. -/
def sfrRowsFC0 : List (Nat × Sfr) := [
  (0xFCF, .periph .tmr1h), (0xFCE, .periph .tmr1l), (0xFCD, .periph .t1con), (0xFCC, .periph .tmr2),
  (0xFCB, .periph .pr2), (0xFCA, .periph .t2con), (0xFC9, .periph .sspbuf), (0xFC8, .periph .sspadd),
  (0xFC7, .periph .sspstat), (0xFC6, .periph .sspcon1), (0xFC5, .periph .sspcon2), (0xFC4, .periph .adresh),
  (0xFC3, .periph .adresl), (0xFC2, .periph .adcon0), (0xFC1, .periph .adcon1)]

/-- FB0h to FBFh. -/
def sfrRowsFB0 : List (Nat × Sfr) := [
  (0xFBF, .periph .ccpr1h), (0xFBE, .periph .ccpr1l), (0xFBD, .periph .ccp1con), (0xFBC, .periph .ccpr2h),
  (0xFBB, .periph .ccpr2l), (0xFBA, .periph .ccp2con), (0xFB3, .periph .tmr3h), (0xFB2, .periph .tmr3l),
  (0xFB1, .periph .t3con)]

/-- FA0h to FAFh. -/
def sfrRowsFA0 : List (Nat × Sfr) := [
  (0xFAF, .periph .spbrg), (0xFAE, .periph .rcreg), (0xFAD, .periph .txreg), (0xFAC, .periph .txsta),
  (0xFAB, .periph .rcsta), (0xFA9, .periph .eeadr), (0xFA8, .periph .eedata), (0xFA7, .periph .eecon2),
  (0xFA6, .periph .eecon1), (0xFA2, .ipr2), (0xFA1, .pir2), (0xFA0, .pie2)]

/-- F90h to F9Fh. -/
def sfrRowsF90 : List (Nat × Sfr) := [
  (0xF9F, .ipr1), (0xF9E, .pir1), (0xF9D, .pie1), (0xF96, .periph .trise),
  (0xF95, .periph .trisd), (0xF94, .periph .trisc), (0xF93, .periph .trisb), (0xF92, .periph .trisa)]

/-- F80h to F8Fh. -/
def sfrRowsF80 : List (Nat × Sfr) := [
  (0xF8D, .periph .late), (0xF8C, .periph .latd), (0xF8B, .periph .latc), (0xF8A, .periph .latb),
  (0xF89, .periph .lata), (0xF84, .periph .porte), (0xF83, .periph .portd), (0xF82, .periph .portc),
  (0xF81, .periph .portb), (0xF80, .periph .porta)]

/-- The map of R60. An address of F80h to FFFh without a row is unimplemented ("—"). -/
def sfrMap : List (Nat × Sfr) :=
  sfrRowsFF0 ++ sfrRowsFE0 ++ sfrRowsFD0 ++ sfrRowsFC0 ++ sfrRowsFB0 ++ sfrRowsFA0 ++ sfrRowsF90 ++ sfrRowsF80

/-- The register at a data address, by the map. -/
def sfrAt (a : DAddr) : Option Sfr := sfrMap.lookup a.toNat

/-- The six registers the 2X2 devices do not have (R61, map note 2). -/
def Sfr.absentOn2X2 : Sfr → Bool
  | .periph p => p = .portd || p = .porte || p = .latd || p = .late || p = .trisd || p = .trise
  | _ => false

/-- What a data address is (R83). -/
inductive DataCell where
  /-- General-purpose RAM: a plain cell. -/
  | gpr
  /-- A register of the map, or an indirect window. -/
  | sfr (r : Sfr)
  /-- Neither: reads 00h, ignores writes (R61, R83, D25). -/
  | unimplemented
  deriving DecidableEq, Repr

/-- The 4096 data addresses (R83): RAM from 000h to `GPR_TOP`, the map from F80h, nothing between. -/
def cellAt (a : DAddr) : DataCell :=
  if a.toNat ≤ Config.gprTop then .gpr
  else match sfrAt a with
    | some r => if r.absentOn2X2 && !Config.hasPortDE then .unimplemented else .sfr r
    | none => .unimplemented

/-- The window at a data address, if it is one of the fifteen (R50). -/
def windowAt (a : DAddr) : Option (WindowKind × FsrIndex) :=
  match sfrAt a with
  | some (.window k n) => some (k, n)
  | _ => none

end Sys2Proof.Machine
end

