-- ==== Sys2Proof/Machine/Operands.lean ====
section
/-! DEFINITION. Data operands: effective address, indirect resolution, the data-bus read and write with the special
behaviour of each register, destination select, and the instruction templates over them (spec/20_memory.md R90 to R98,
spec/40_data_movement.md R159). -/

namespace Sys2Proof.Machine

/-! ### Addresses -/

/-- `EA(f, a)` (R92 to R94). -/
def ea (f : Byte) (a : Bool) (s : State) : DAddr :=
  if a then s.bsr ++ f
  else if f.toNat < Config.accessSplit then 0x0#4 ++ f else 0xF#4 ++ f

/-- `FSRn` (R23). -/
def State.fsr (s : State) : FsrIndex → BitVec 12
  | .f0 => s.fsr0
  | .f1 => s.fsr1
  | .f2 => s.fsr2

/-- `FSRn <- v`. -/
def State.setFsr (s : State) (n : FsrIndex) (v : BitVec 12) : State :=
  match n with
  | .f0 => { s with fsr0 := v }
  | .f1 => { s with fsr1 := v }
  | .f2 => { s with fsr2 := v }

/-- The address a window points at (R95, R96), modulo 4096. -/
def pointerTarget (k : WindowKind) (n : FsrIndex) (s : State) : DAddr :=
  match k with
  | .indf | .postinc | .postdec => s.fsr n
  | .preinc => s.fsr n + 1#12
  | .plusw => s.fsr n + s.w.signExtend 12

/-- A resolved operand: a data address, or `none` for R95's NONE. -/
abbrev Target := Option DAddr

/-- The target of a data address (R95): itself, unless it is a window; NONE when a window's pointer is at a window. -/
def target (A : DAddr) (s : State) : Target :=
  match windowAt A with
  | none => some A
  | some (k, n) =>
    match windowAt (pointerTarget k n s) with
    | none => some (pointerTarget k n s)
    | some _ => none

/-- The pointer modification of an access to a data address (R95): by one for the stepping windows, else none. -/
def bump (A : DAddr) (s : State) : State :=
  match windowAt A with
  | some (.postinc, n) => s.setFsr n (s.fsr n + 1#12)
  | some (.postdec, n) => s.setFsr n (s.fsr n - 1#12)
  | some (.preinc, n) => s.setFsr n (s.fsr n + 1#12)
  | _ => s

/-- POSTINC, POSTDEC and PREINC change their pointer (R95). -/
def WindowKind.steps : WindowKind → Bool
  | .postinc | .postdec | .preinc => true
  | .indf | .plusw => false

/-- A stepping window whose pointer is at FSRnL or FSRnH of the same n (R97 (b)). -/
def ownFsrHit (A : DAddr) (s : State) : Bool :=
  match windowAt A with
  | some (k, n) =>
    k.steps && (sfrAt (pointerTarget k n s) == some (.fsrl n) || sfrAt (pointerTarget k n s) == some (.fsrh n))
  | none => false

/-- `resolve(A)` (R95): the target, and the state after the pointer modification. -/
def resolve (A : DAddr) (s : State) : Except Fault (Target × State) :=
  if ownFsrHit A s then .error .indirectOnOwnFSR else .ok (target A s, bump A s)

/-! ### Register bytes (R62) -/

/-- INTCON as a byte. -/
def Intcon.toByte (i : Intcon) : Byte :=
  BitVec.ofBool i.gie ++ BitVec.ofBool i.peie ++ BitVec.ofBool i.tmr0ie ++ BitVec.ofBool i.int0ie ++
    BitVec.ofBool i.rbie ++ BitVec.ofBool i.tmr0if ++ BitVec.ofBool i.int0if ++ BitVec.ofBool i.rbif

/-- INTCON from a byte: all bits are writable. -/
def Intcon.ofByte (v : Byte) : Intcon :=
  ⟨v.getLsbD 7, v.getLsbD 6, v.getLsbD 5, v.getLsbD 4, v.getLsbD 3, v.getLsbD 2, v.getLsbD 1, v.getLsbD 0⟩

/-- RCON as a byte: bits 6:5 read 0. -/
def Rcon.toByte (r : Rcon) : Byte :=
  BitVec.ofBool r.ipen ++ 0#2 ++ BitVec.ofBool r.ri ++ BitVec.ofBool r.to_ ++ BitVec.ofBool r.pd ++
    BitVec.ofBool r.por ++ BitVec.ofBool r.bor

/-- RCON from a byte: bits 6:5 are ignored. -/
def Rcon.ofByte (v : Byte) : Rcon :=
  ⟨v.getLsbD 7, v.getLsbD 4, v.getLsbD 3, v.getLsbD 2, v.getLsbD 1, v.getLsbD 0⟩

/-- The implemented bits of INTCON2 (R62: 1111 -1-1). -/
def intcon2Mask : Byte := 0xF5#8

/-- The implemented bits of INTCON3 (R62: 11-1 1-11). -/
def intcon3Mask : Byte := 0xDB#8

/-- The implemented bits of PIR2, PIE2 and IPR2 (R62: ---1 1111). -/
def irq2Mask : Byte := 0x1F#8

/-- RCIF and TXIF, PIR1 bits 5 and 4: a data write leaves them (R62). -/
def pir1ReadOnly : Byte := 0x30#8

/-- A data write to PIR1: RCIF and TXIF keep their values. -/
def writePir1 (old v : Byte) : Byte := (old &&& pir1ReadOnly) ||| (v &&& pspMask &&& ~~~pir1ReadOnly)

/-! ### The data bus (R90, R91) -/

/-- TOSU, TOSH and TOSL, the window on the top stack entry (R42). -/
def Sfr.isTos : Sfr → Bool
  | .tosu | .tosh | .tosl => true
  | _ => false

/-- The value a read of a register returns (R90). A peripheral read is the next free value (D24, D32). -/
def peekSfr (r : Sfr) (s : State) : Byte :=
  match r with
  | .wreg => s.w
  | .status => s.status.toByte
  | .bsr => 0#4 ++ s.bsr
  | .fsrl n => (s.fsr n).extractLsb' 0 8
  | .fsrh n => 0#4 ++ (s.fsr n).extractLsb' 8 4
  | .pcl => (s.pc + 2#21).extractLsb' 0 8
  | .pclath => s.pclath
  | .pclatu => 0#3 ++ s.pclatu
  | .stkptr => BitVec.ofBool s.stkful ++ BitVec.ofBool s.stkunf ++ 0#1 ++ s.sp
  | .tosl => (s.stackEntry s.sp).extractLsb' 0 8
  | .tosh => (s.stackEntry s.sp).extractLsb' 8 8
  | .tosu => 0#3 ++ (s.stackEntry s.sp).extractLsb' 16 5
  | .prodl => s.prodl
  | .prodh => s.prodh
  | .tablat => s.tablat
  | .tblptrl => s.tblptr.extractLsb' 0 8
  | .tblptrh => s.tblptr.extractLsb' 8 8
  | .tblptru => 0#2 ++ s.tblptr.extractLsb' 16 6
  | .intcon => s.intcon.toByte
  | .intcon2 => s.intcon2
  | .intcon3 => s.intcon3
  | .rcon => s.rcon.toByte
  | .pir1 => s.pir1
  | .pie1 => s.pie1
  | .ipr1 => s.ipr1
  | .pir2 => s.pir2
  | .pie2 => s.pie2
  | .ipr2 => s.ipr2
  | .periph _ => Config.draw s.draws
  | .window _ _ => 0#8

/-- The value a read of a resolved operand returns (R90). -/
def peek (T : Target) (s : State) : Byte :=
  match T with
  | none => 0#8
  | some a =>
    match cellAt a with
    | .gpr => s.ramAt a
    | .sfr r => peekSfr r s
    | .unimplemented => 0#8

/-- What a read changes: PCL latches the upper PC bytes of pc + 2 (R26), a peripheral read uses up a free value (R63). -/
def readEffect (T : Target) (s : State) : State :=
  match T with
  | none => s
  | some a =>
    match cellAt a with
    | .sfr .pcl => { s with pclath := (s.pc + 2#21).extractLsb' 8 8, pclatu := (s.pc + 2#21).extractLsb' 16 5 }
    | .sfr (.periph _) => { s with draws := s.draws + 1 }
    | _ => s

/-- Why a read stops: the top of an empty stack (R42). -/
def readFault (T : Target) (s : State) : Option Fault :=
  match T with
  | none => none
  | some a =>
    match cellAt a with
    | .sfr r => if r.isTos && s.sp == 0#5 then some .stackEmptyAccess else none
    | _ => none

/-- `x[T]` of a resolved operand (R90). -/
def readData (T : Target) (s : State) : Except Fault (Byte × State) :=
  match readFault T s with
  | some e => .error e
  | none => .ok (peek T s, readEffect T s)

/-- What a write to a register does (R91); `a` is its address, where a peripheral's byte is kept (R63). -/
def pokeSfr (r : Sfr) (a : DAddr) (v : Byte) (s : State) : State :=
  match r with
  | .wreg => { s with w := v }
  | .status => { s with status := Status.ofByte v }
  | .bsr => { s with bsr := v.extractLsb' 0 4 }
  | .fsrl n => s.setFsr n ((s.fsr n).extractLsb' 8 4 ++ v)
  | .fsrh n => s.setFsr n (v.extractLsb' 0 4 ++ (s.fsr n).extractLsb' 0 8)
  | .pcl => s.jump (s.pclatu ++ s.pclath ++ v)
  | .pclath => { s with pclath := v }
  | .pclatu => { s with pclatu := v.extractLsb' 0 5 }
  | .stkptr => { s with sp := v.extractLsb' 0 5 }
  | .tosl => s.setStackEntry s.sp ((s.stackEntry s.sp).extractLsb' 8 13 ++ v)
  | .tosh => s.setStackEntry s.sp ((s.stackEntry s.sp).extractLsb' 16 5 ++ v ++ (s.stackEntry s.sp).extractLsb' 0 8)
  | .tosu => s.setStackEntry s.sp (v.extractLsb' 0 5 ++ (s.stackEntry s.sp).extractLsb' 0 16)
  | .prodl => { s with prodl := v }
  | .prodh => { s with prodh := v }
  | .tablat => { s with tablat := v }
  | .tblptrl => { s with tblptr := s.tblptr.extractLsb' 8 14 ++ v }
  | .tblptrh => { s with tblptr := s.tblptr.extractLsb' 16 6 ++ v ++ s.tblptr.extractLsb' 0 8 }
  | .tblptru => { s with tblptr := v.extractLsb' 0 6 ++ s.tblptr.extractLsb' 0 16 }
  | .intcon => { s with intcon := Intcon.ofByte v }
  | .intcon2 => { s with intcon2 := v &&& intcon2Mask }
  | .intcon3 => { s with intcon3 := v &&& intcon3Mask }
  | .rcon => { s with rcon := Rcon.ofByte v }
  | .pir1 => { s with pir1 := writePir1 s.pir1 v }
  | .pie1 => { s with pie1 := v &&& pspMask }
  | .ipr1 => { s with ipr1 := v &&& pspMask }
  | .pir2 => { s with pir2 := v &&& irq2Mask }
  | .pie2 => { s with pie2 := v &&& irq2Mask }
  | .ipr2 => { s with ipr2 := v &&& irq2Mask }
  | .periph _ => s.setRam a v
  | .window _ _ => s

/-- What a write to a resolved operand does (R91). -/
def poke (T : Target) (v : Byte) (s : State) : State :=
  match T with
  | none => s
  | some a =>
    match cellAt a with
    | .gpr => s.setRam a v
    | .sfr r => pokeSfr r a v s
    | .unimplemented => s

/-- Why a write stops: the top of an empty stack (R42), EECON2 (R107). -/
def writeFault (T : Target) (s : State) : Option Fault :=
  match T with
  | none => none
  | some a =>
    match cellAt a with
    | .sfr (.periph .eecon2) => some .selfProgramming
    | .sfr r => if r.isTos && s.sp == 0#5 then some .stackEmptyAccess else none
    | _ => none

/-- `x[T] <- v` of a resolved operand (R91). -/
def writeData (T : Target) (v : Byte) (s : State) : Except Fault State :=
  match writeFault T s with
  | some e => .error e
  | none => .ok (poke T v s)

/-! ### Destination select and flags -/

/-- Write exactly the flags named (R31). -/
def State.setFlags (s : State) (fw : FlagWrite) : State := { s with status := s.status.setFlags fw }

/-- The write to `f`, suppressed where an instruction that affects flags has STATUS as its destination (R31, R367). -/
def writeF (affects : Bool) (T : Target) (v : Byte) (s : State) : Except Fault State :=
  if affects && T == some 0xFD8#12 then .ok s else writeData T v s

/-- `writedest(d, T, v)` (R98). -/
def writeDest (d affects : Bool) (T : Target) (v : Byte) (s : State) : Except Fault State :=
  if d then writeF affects T v s else .ok { s with w := v }

/-- `T <- resolve(EA(f, a)); v <- x[T]` (R159). -/
def readOperand (A : DAddr) (s : State) : Except Fault (Target × Byte × State) :=
  match resolve A s with
  | .error e => .error e
  | .ok (T, s1) =>
    match readData T s1 with
    | .error e => .error e
    | .ok (v, s2) => .ok (T, v, s2)

/-! ### Instruction templates (R159) -/

/-- Read `f`, compute from it, W and STATUS, write by `d`, set the flags named; then skip the next word when the result
passes `skips` (R135). A write to PCL, or the skip, replaces the next address; the later of the two stands (log 8). -/
def fileOp (f : Byte) (d a : Bool) (alu : Byte → Byte → Status → Byte × FlagWrite) (skips : Byte → Bool) (s : State) :
    Except Fault State :=
  match readOperand (ea f a s) s with
  | .error e => .error e
  | .ok (T, v, s1) =>
    let out := alu v s1.w s1.status
    match writeDest d out.2.affects T out.1 (s1.advance 2) with
    | .error e => .error e
    | .ok s2 =>
      let s3 := s2.setFlags out.2
      .ok (if skips out.1 then s3.jump (s1.pc + 4#21) else s3)

/-- No skip. -/
def noSkip : Byte → Bool := fun _ => false

/-- Write a value to `f` without reading it: MOVWF, CLRF, SETF. -/
def fileStore (f : Byte) (a : Bool) (v : Byte) (fw : FlagWrite) (s : State) : Except Fault State :=
  match resolve (ea f a s) s with
  | .error e => .error e
  | .ok (T, s1) =>
    match writeF fw.affects T v (s1.advance 2) with
    | .error e => .error e
    | .ok s2 => .ok (s2.setFlags fw)

/-- Read `f` and skip the next word when it passes the test against W (R223 to R225, R234, R252, R253). -/
def fileTest (f : Byte) (a : Bool) (test : Byte → Byte → Bool) (s : State) : Except Fault State :=
  match readOperand (ea f a s) s with
  | .error e => .error e
  | .ok (_, v, s1) => .ok (s1.advance (if test v s1.w then 4 else 2))

/-- PRODH:PRODL from a 16-bit product (R28). -/
def State.setProd (s : State) (p : BitVec 16) : State :=
  { s with prodh := p.extractLsb' 8 8, prodl := p.extractLsb' 0 8 }

/-- W and the flags from W and a literal (R100). -/
def literalOp (alu : Byte → Byte × FlagWrite) (s : State) : State :=
  ({ s with w := (alu s.w).1 }.setFlags (alu s.w).2).advance 2

end Sys2Proof.Machine
end

