-- ==== Sys2Proof/Machine/DataMovement.lean ====
section
/-! DEFINITION. The meanings of spec/40_data_movement.md. -/

namespace Sys2Proof.Machine

/-- What a step answers. -/
abbrev Step := Host.Outcome State Fault Refusal

/-- MOVLB (R160). -/
def execMovlb (k : BitVec 4) (s : State) : Step := .next ({ s with bsr := k }.advance 2)

/-- MOVLW (R161). -/
def execMovlw (k : Byte) (s : State) : Step := .next ({ s with w := k }.advance 2)

/-- MOVF (R162): flags Z and N (conflict C13). -/
def execMovf (f : Byte) (d a : Bool) (s : State) : Step :=
  outcome (fileOp f d a (fun v _ _ => (v, flagsZN v)) noSkip s)

/-- The destinations MOVFF may not name: PCL, TOSL, TOSH, TOSU (R163, D29). -/
def movffForbidden (fd : DAddr) : Bool := fd = 0xFF9#12 || fd = 0xFFD#12 || fd = 0xFFE#12 || fd = 0xFFF#12

/-- MOVFF (R163): the source is resolved and read before the destination is resolved (R95). -/
def execMovff (fs fd : DAddr) (s : State) : Step :=
  if movffForbidden fd then .fault .movffForbiddenDestination
  else if fs = 0xFF9#12 then .fault .movffPclSource
  else
    match readOperand fs s with
    | .error e => .fault e
    | .ok (_, v, s1) =>
      match resolve fd (s1.advance 4) with
      | .error e => .fault e
      | .ok (T, s2) => outcome (writeData T v s2)

/-- MOVWF (R164). -/
def execMovwf (f : Byte) (a : Bool) (s : State) : Step := outcome (fileStore f a s.w .nothing s)

/-- SWAPF (R165). -/
def execSwapf (f : Byte) (d a : Bool) (s : State) : Step :=
  outcome (fileOp f d a (fun v _ _ => (swapNibbles v, .nothing)) noSkip s)

/-- A table read with what the pointer does after it. A read that faults commits nothing (R311, vector T28), the incremented
pointer of TBLRD+* included, where R169 has it stay incremented: DEDUCED (log 26). -/
def tableReadThen (after : State → State) (s : State) : Step :=
  match tableRead s with
  | .error e => .fault e
  | .ok s1 => .next ((after s1).advance 2)

/-- TBLRD* (R166). -/
def execTblrd (s : State) : Step := tableReadThen id s

/-- TBLRD*+ (R167). -/
def execTblrdPostInc (s : State) : Step := tableReadThen State.tblptrInc s

/-- TBLRD*- (R168). -/
def execTblrdPostDec (s : State) : Step := tableReadThen State.tblptrDec s

/-- TBLRD+* (R169): the incremented pointer is the one checked. -/
def execTblrdPreInc (s : State) : Step := tableReadThen id s.tblptrInc

/-- TBLWT* (R170). -/
def execTblwt (s : State) : Step := .next (s.tableWrite.advance 2)

/-- TBLWT*+ (R171). -/
def execTblwtPostInc (s : State) : Step := .next (s.tableWrite.tblptrInc.advance 2)

/-- TBLWT*- (R172). -/
def execTblwtPostDec (s : State) : Step := .next (s.tableWrite.tblptrDec.advance 2)

/-- TBLWT+* (R173). -/
def execTblwtPreInc (s : State) : Step := .next (s.tblptrInc.tableWrite.advance 2)

end Sys2Proof.Machine
end

