-- ==== Sys2Proof/Machine/Arithmetic.lean ====
section
/-! DEFINITION. The meanings of spec/41_arithmetic.md and spec/45_secondary_only.md. -/

namespace Sys2Proof.Machine

/-- ADDLW (R190). -/
def execAddlw (k : Byte) (s : State) : Step := .next (literalOp (fun w => add8 w k false) s)

/-- ADDWF (R191). -/
def execAddwf (f : Byte) (d a : Bool) (s : State) : Step :=
  outcome (fileOp f d a (fun v w _ => add8 w v false) noSkip s)

/-- ADDWFC (R192). -/
def execAddwfc (f : Byte) (d a : Bool) (s : State) : Step :=
  outcome (fileOp f d a (fun v w st => add8 w v st.c) noSkip s)

/-- MULLW (R193). -/
def execMullw (k : Byte) (s : State) : Step := .next ((s.setProd (mul8 s.w k)).advance 2)

/-- MULWF (R194). -/
def execMulwf (f : Byte) (a : Bool) (s : State) : Step :=
  match readOperand (ea f a s) s with
  | .error e => .fault e
  | .ok (_, v, s1) => .next ((s1.setProd (mul8 s1.w v)).advance 2)

/-- SUBLW (R195): k - W. -/
def execSublw (k : Byte) (s : State) : Step := .next (literalOp (fun w => sub8 k w false) s)

/-- SUBWF (R196): f - W. -/
def execSubwf (f : Byte) (d a : Bool) (s : State) : Step :=
  outcome (fileOp f d a (fun v w _ => sub8 v w false) noSkip s)

/-- SUBWFB (R197): f - W - (1 - C). -/
def execSubwfb (f : Byte) (d a : Bool) (s : State) : Step :=
  outcome (fileOp f d a (fun v w st => sub8 v w (!st.c)) noSkip s)

/-- CLRF (R198): flag Z only (conflict C14). -/
def execClrf (f : Byte) (a : Bool) (s : State) : Step := outcome (fileStore f a 0#8 { z := some true } s)

/-- DECF (R199). -/
def execDecf (f : Byte) (d a : Bool) (s : State) : Step :=
  outcome (fileOp f d a (fun v _ _ => sub8 v 1#8 false) noSkip s)

/-- DECFSZ (R200). -/
def execDecfsz (f : Byte) (d a : Bool) (s : State) : Step :=
  outcome (fileOp f d a (fun v _ _ => (v - 1#8, .nothing)) (fun r => r == 0#8) s)

/-- DCFSNZ (R201). -/
def execDcfsnz (f : Byte) (d a : Bool) (s : State) : Step :=
  outcome (fileOp f d a (fun v _ _ => (v - 1#8, .nothing)) (fun r => r != 0#8) s)

/-- INCF (R202). -/
def execIncf (f : Byte) (d a : Bool) (s : State) : Step :=
  outcome (fileOp f d a (fun v _ _ => add8 v 1#8 false) noSkip s)

/-- INCFSZ (R203). -/
def execIncfsz (f : Byte) (d a : Bool) (s : State) : Step :=
  outcome (fileOp f d a (fun v _ _ => (v + 1#8, .nothing)) (fun r => r == 0#8) s)

/-- INFSNZ (R204). -/
def execInfsnz (f : Byte) (d a : Bool) (s : State) : Step :=
  outcome (fileOp f d a (fun v _ _ => (v + 1#8, .nothing)) (fun r => r != 0#8) s)

/-- SETF (R205). -/
def execSetf (f : Byte) (a : Bool) (s : State) : Step := outcome (fileStore f a 0xFF#8 .nothing s)

/-- SUBFWB (R301): W - f - (1 - C). -/
def execSubfwb (f : Byte) (d a : Bool) (s : State) : Step :=
  outcome (fileOp f d a (fun v w st => sub8 w v (!st.c)) noSkip s)

/-- DAW (R302). -/
def execDaw (s : State) : Step :=
  .next (literalOp (fun w => ((daw8 w s.status.c s.status.dc).1, { c := some (daw8 w s.status.c s.status.dc).2 })) s)

end Sys2Proof.Machine
end

