-- ==== Sys2Proof/Machine/Bits.lean ====
section
/-! DEFINITION. The meanings of spec/43_bit_oriented.md: read-modify-write of the whole byte, no flag (R249). -/

namespace Sys2Proof.Machine

/-- BCF (R250). -/
def execBcf (f : Byte) (b : BitVec 3) (a : Bool) (s : State) : Step :=
  outcome (fileOp f true a (fun v _ _ => (v &&& ~~~bitMask b, .nothing)) noSkip s)

/-- BSF (R251). -/
def execBsf (f : Byte) (b : BitVec 3) (a : Bool) (s : State) : Step :=
  outcome (fileOp f true a (fun v _ _ => (v ||| bitMask b, .nothing)) noSkip s)

/-- BTFSC (R252). -/
def execBtfsc (f : Byte) (b : BitVec 3) (a : Bool) (s : State) : Step :=
  outcome (fileTest f a (fun v _ => !v.getLsbD b.toNat) s)

/-- BTFSS (R253). -/
def execBtfss (f : Byte) (b : BitVec 3) (a : Bool) (s : State) : Step :=
  outcome (fileTest f a (fun v _ => v.getLsbD b.toNat) s)

/-- BTG (R254). -/
def execBtg (f : Byte) (b : BitVec 3) (a : Bool) (s : State) : Step :=
  outcome (fileOp f true a (fun v _ _ => (v ^^^ bitMask b, .nothing)) noSkip s)

end Sys2Proof.Machine
end

