-- ==== Sys2Proof/Machine/Control.lean ====
section
/-! DEFINITION. The meanings of spec/44_control.md. -/

namespace Sys2Proof.Machine

/-- The template of the conditional branches (R259, R131). -/
def branchIf (taken : Bool) (n : BitVec 8) (s : State) : Step :=
  .next (if taken then s.jump (relTarget s.pc n) else s.advance 2)

/-- BC (R260). -/
def execBc (n : BitVec 8) (s : State) : Step := branchIf s.status.c n s

/-- BN (R261). -/
def execBn (n : BitVec 8) (s : State) : Step := branchIf s.status.n n s

/-- BNC (R262). -/
def execBnc (n : BitVec 8) (s : State) : Step := branchIf (!s.status.c) n s

/-- BNN (R263). -/
def execBnn (n : BitVec 8) (s : State) : Step := branchIf (!s.status.n) n s

/-- BNOV (R264). -/
def execBnov (n : BitVec 8) (s : State) : Step := branchIf (!s.status.ov) n s

/-- BNZ (R265). -/
def execBnz (n : BitVec 8) (s : State) : Step := branchIf (!s.status.z) n s

/-- BOV (R266). -/
def execBov (n : BitVec 8) (s : State) : Step := branchIf s.status.ov n s

/-- BZ (R267). -/
def execBz (n : BitVec 8) (s : State) : Step := branchIf s.status.z n s

/-- BRA (R268). -/
def execBra (n : BitVec 11) (s : State) : Step := .next (s.jump (relTarget s.pc n))

/-- CALL (R269): push pc + 4, copy to the fast register stack with `s` = 1, jump to 2k. -/
def execCall (k : BitVec 20) (fast : Bool) (s : State) : Step :=
  match push (s.pc + 4#21) s with
  | .error e => .fault e
  | .ok s1 => .next ((s1.saveFastIf fast).jump (absTarget k))

/-- CLRWDT (R270). -/
def execClrwdt (s : State) : Step :=
  .next ({ s with wdt := 0, rcon := { s.rcon with to_ := true, pd := true } }.advance 2)

/-- GOTO (R271). -/
def execGoto (k : BitVec 20) (s : State) : Step := .next (s.jump (absTarget k))

/-- NOP, first form (R272). -/
def execNop (s : State) : Step := .next (s.advance 2)

/-- NOP, second form (R273): the twelve bits are ignored. -/
def execNopF (_x : BitVec 12) (s : State) : Step := .next (s.advance 2)

/-- POP (R274): the top entry is discarded, not read. -/
def execPop (s : State) : Step :=
  if s.sp = 0#5 then .fault .stackUnderflow else .next ({ s with sp := s.sp - 1#5 }.advance 2)

/-- PUSH (R275). -/
def execPush (s : State) : Step :=
  match push (s.pc + 2#21) s with
  | .error e => .fault e
  | .ok s1 => .next (s1.advance 2)

/-- RCALL (R276). -/
def execRcall (n : BitVec 11) (s : State) : Step :=
  match push (s.pc + 2#21) s with
  | .error e => .fault e
  | .ok s1 => .next (s1.jump (relTarget s.pc n))

/-- RESET (R277, R352). -/
def execReset (s : State) : Step := .next s.warmReset

/-- RETFIE (R278, R318). -/
def execRetfie (fast : Bool) (s : State) : Step := outcome (returnFromInterrupt fast s)

/-- RETLW (R279). -/
def execRetlw (k : Byte) (s : State) : Step :=
  match pop s with
  | .error e => .fault e
  | .ok (v, s1) => .next ({ s1 with w := k }.jump v)

/-- RETURN (R280). -/
def execRet (fast : Bool) (s : State) : Step :=
  match pop s with
  | .error e => .fault e
  | .ok (v, s1) => .next ((s1.jump v).restoreFastIf fast)

/-- SLEEP (R281). -/
def execSleep (s : State) : Step :=
  .next ({ s with wdt := 0, rcon := { s.rcon with to_ := true, pd := false }, sleeping := true }.advance 2)

end Sys2Proof.Machine
end

