-- ==== Sys2Proof/Machine/Logic.lean ====
section
/-! DEFINITION. The meanings of spec/42_logic_compare.md. -/

namespace Sys2Proof.Machine

/-- A logic result with its flags (R219). -/
def logic (r : Byte) : Byte × FlagWrite := (r, flagsZN r)

/-- ANDLW (R220). -/
def execAndlw (k : Byte) (s : State) : Step := .next (literalOp (fun w => logic (w &&& k)) s)

/-- ANDWF (R221). -/
def execAndwf (f : Byte) (d a : Bool) (s : State) : Step :=
  outcome (fileOp f d a (fun v w _ => logic (w &&& v)) noSkip s)

/-- COMF (R222). -/
def execComf (f : Byte) (d a : Bool) (s : State) : Step :=
  outcome (fileOp f d a (fun v _ _ => logic (~~~v)) noSkip s)

/-- CPFSEQ (R223). -/
def execCpfseq (f : Byte) (a : Bool) (s : State) : Step := outcome (fileTest f a (fun v w => v == w) s)

/-- CPFSGT (R224): unsigned. -/
def execCpfsgt (f : Byte) (a : Bool) (s : State) : Step :=
  outcome (fileTest f a (fun v w => decide (w.toNat < v.toNat)) s)

/-- CPFSLT (R225): unsigned. -/
def execCpfslt (f : Byte) (a : Bool) (s : State) : Step :=
  outcome (fileTest f a (fun v w => decide (v.toNat < w.toNat)) s)

/-- IORLW (R226). -/
def execIorlw (k : Byte) (s : State) : Step := .next (literalOp (fun w => logic (w ||| k)) s)

/-- IORWF (R227). -/
def execIorwf (f : Byte) (d a : Bool) (s : State) : Step :=
  outcome (fileOp f d a (fun v w _ => logic (w ||| v)) noSkip s)

/-- LFSR (R228); `ff = 3` names no pointer and no word decodes to it (R133, D35). -/
def execLfsr (ff : BitVec 2) (k : BitVec 12) (s : State) : Step :=
  match ff.toNat with
  | 0 => .next ((s.setFsr .f0 k).advance 4)
  | 1 => .next ((s.setFsr .f1 k).advance 4)
  | 2 => .next ((s.setFsr .f2 k).advance 4)
  | _ => .fault .illegalInstruction

/-- NEGF (R229): 0 - f, to `f`. -/
def execNegf (f : Byte) (a : Bool) (s : State) : Step :=
  outcome (fileOp f true a (fun v _ _ => sub8 0#8 v false) noSkip s)

/-- RLCF (R230). -/
def execRlcf (f : Byte) (d a : Bool) (s : State) : Step :=
  outcome (fileOp f d a (fun v _ st => rotLeftCarry v st.c) noSkip s)

/-- RLNCF (R231). -/
def execRlncf (f : Byte) (d a : Bool) (s : State) : Step :=
  outcome (fileOp f d a (fun v _ _ => rotLeft v) noSkip s)

/-- RRCF (R232). -/
def execRrcf (f : Byte) (d a : Bool) (s : State) : Step :=
  outcome (fileOp f d a (fun v _ st => rotRightCarry v st.c) noSkip s)

/-- RRNCF (R233). -/
def execRrncf (f : Byte) (d a : Bool) (s : State) : Step :=
  outcome (fileOp f d a (fun v _ _ => rotRight v) noSkip s)

/-- TSTFSZ (R234). -/
def execTstfsz (f : Byte) (a : Bool) (s : State) : Step := outcome (fileTest f a (fun v _ => v == 0#8) s)

/-- XORLW (R235). -/
def execXorlw (k : Byte) (s : State) : Step := .next (literalOp (fun w => logic (w ^^^ k)) s)

/-- XORWF (R236). -/
def execXorwf (f : Byte) (d a : Bool) (s : State) : Step :=
  outcome (fileOp f d a (fun v w _ => logic (w ^^^ v)) noSkip s)

end Sys2Proof.Machine
end

