-- ==== Sys2Proof/Machine/Environment.lean ====
section
/-! DEFINITION. The instruction boundary: the environment's move, interrupt requests and their priority, wake-up from
sleep, and the fetch (spec/00_scope.md R12, spec/60_exceptions.md R312 to R321, R332, R336). -/

namespace Sys2Proof.Machine

/-! ### Interrupt sources (R312) -/

/-- The interrupt sources: five core sources and the bits of PIR1 and PIR2. -/
inductive IrqSource where
  | int0 | int1 | int2 | tmr0 | rb
  | periph1 (b : BitVec 3)
  | periph2 (b : BitVec 3)
  deriving DecidableEq, Repr

/-- R313's `core`. -/
def coreSources : List IrqSource := [.int0, .int1, .int2, .tmr0, .rb]

/-- R313's `periph`: PIR1 bits 7:0 and PIR2 bits 4:0. -/
def periphSources : List IrqSource :=
  [.periph1 7#3, .periph1 6#3, .periph1 5#3, .periph1 4#3, .periph1 3#3, .periph1 2#3, .periph1 1#3, .periph1 0#3] ++
    [.periph2 4#3, .periph2 3#3, .periph2 2#3, .periph2 1#3, .periph2 0#3]

/-- Every source. -/
def irqSources : List IrqSource := coreSources ++ periphSources

/-- `xIE` (R312). -/
def irqEnable (s : State) : IrqSource → Bool
  | .int0 => s.intcon.int0ie
  | .int1 => s.intcon3.getLsbD 3
  | .int2 => s.intcon3.getLsbD 4
  | .tmr0 => s.intcon.tmr0ie
  | .rb => s.intcon.rbie
  | .periph1 b => s.pie1.getLsbD b.toNat
  | .periph2 b => s.pie2.getLsbD b.toNat

/-- `xIF` (R312). -/
def irqFlag (s : State) : IrqSource → Bool
  | .int0 => s.intcon.int0if
  | .int1 => s.intcon3.getLsbD 0
  | .int2 => s.intcon3.getLsbD 1
  | .tmr0 => s.intcon.tmr0if
  | .rb => s.intcon.rbif
  | .periph1 b => s.pir1.getLsbD b.toNat
  | .periph2 b => s.pir2.getLsbD b.toNat

/-- `hi(x)` (R313): INT0, or `xIP` = 1. -/
def irqHigh (s : State) : IrqSource → Bool
  | .int0 => true
  | .int1 => s.intcon3.getLsbD 6
  | .int2 => s.intcon3.getLsbD 7
  | .tmr0 => s.intcon2.getLsbD 2
  | .rb => s.intcon2.getLsbD 0
  | .periph1 b => s.ipr1.getLsbD b.toNat
  | .periph2 b => s.ipr2.getLsbD b.toNat

/-- `req(x) = xIF and xIE` (R313). -/
def irqRequest (s : State) (x : IrqSource) : Bool := irqEnable s x && irqFlag s x

/-- R313's `request_high`. -/
def requestHigh (s : State) : Bool :=
  if s.rcon.ipen then irqSources.any fun x => irqRequest s x && irqHigh s x
  else coreSources.any (irqRequest s) || (s.intcon.peie && periphSources.any (irqRequest s))

/-- R313's `request_low`. -/
def requestLow (s : State) : Bool :=
  s.rcon.ipen && irqSources.any fun x => irqRequest s x && !irqHigh s x

/-- The interrupt to take at this boundary, high before low (R313, R314, R320). -/
def pendingInterrupt (s : State) : Option IrqLevel :=
  if s.intcon.gie && requestHigh s then some .high
  else if s.intcon.gie && s.intcon.peie && requestLow s then some .low
  else none

/-! ### Wake-up (R336) -/

/-- An interrupt request wakes the core whatever INTCON bit 7 says; every source is taken to run in sleep (log 11). -/
def wakeRequest (s : State) : Bool := irqSources.any (irqRequest s)

/-- Leave standby when an interrupt is requested. -/
def State.wakeIfRequested (s : State) : State :=
  if s.sleeping && wakeRequest s then { s with sleeping := false } else s

/-! ### The environment's move (R312, R320, R332, R350) -/

/-- Give a bit of a byte a value. -/
def setBitTo (v : Byte) (b : BitVec 3) (on : Bool) : Byte := if on then v ||| bitMask b else v &&& ~~~bitMask b

/-- A peripheral's RCIF or TXIF follows it (R312). -/
def followFlag (v : Byte) (b : BitVec 3) : Option Bool → Byte
  | none => v
  | some on => setBitTo v b on

/-- The interrupt flags the environment sets, RCIF and TXIF as given, and the watchdog's count. -/
def State.applyFlags (s : State) (m : EnvMove) : State :=
  { s with
    intcon := { s.intcon with
                tmr0if := s.intcon.tmr0if || m.tmr0if
                int0if := s.intcon.int0if || m.int0if
                rbif := s.intcon.rbif || m.rbif }
    intcon3 := s.intcon3 ||| (if m.int1if then bitMask 0#3 else 0#8) ||| (if m.int2if then bitMask 1#3 else 0#8)
    pir1 := followFlag (followFlag (s.pir1 ||| (m.pir1 &&& pspMask &&& ~~~pir1ReadOnly)) 5#3 m.rcif) 4#3 m.txif
    pir2 := s.pir2 ||| (m.pir2 &&& irq2Mask)
    wdt := s.wdt + m.wdtTicks }

/-- The watchdog's time-out while asleep: wake with TO = 0 (R332, R336). That the count restarts from 0 there is a DESIGN
CHOICE: the spec gives only the wake-up and TO (log 18). -/
def State.watchdogWake (s : State) : State :=
  { s with sleeping := false, wdt := 0, rcon := { s.rcon with to_ := false } }

/-- What the boundary leaves: a device reset, which is a step of its own (log 10), or a state that goes on. -/
inductive Boundary where
  | reset (s : State)
  | run (s : State)
  deriving DecidableEq, Repr

/-- The environment's move at a boundary, in the order of R320: reset, then the watchdog. -/
def boundary (s : State) : Boundary :=
  match s.env with
  | [] => .run s
  | m :: rest =>
    match m.reset with
    | some k => .reset ({ s with env := rest }.externalReset k)
    | none =>
      let s1 := { s with env := rest }.applyFlags m
      if m.wdtTimeout && Config.wdtEnabled then
        if s1.sleeping then .run s1.watchdogWake else .reset s1.watchdogReset
      else .run s1

/-! ### Fetch (R12, R81, R82) -/

/-- The program bytes of one or two words from `pc` that lie inside program memory (R82). -/
def fetchBytes (s : State) : List Byte :=
  let a := s.pc.toNat
  if a + 1 < Config.progMemBytes then
    [s.progByte a, s.progByte (a + 1)] ++
      (if a + 3 < Config.progMemBytes then [s.progByte (a + 2), s.progByte (a + 3)] else [])
  else []

/-- Fetch and decode the instruction at `pc`; a word that would come from outside program memory stops the model (R82),
and so do the rejections of the decoder (R134, R142). -/
def fetch (s : State) : Except Fault Instr :=
  match decode (fetchBytes s) with
  | .ok i _ => .ok i
  | .illegalInstruction => .error .illegalInstruction
  | .malformedSecondWord => .error .malformedSecondWord
  | .truncated => .error .fetchOutsideProgram

/-- Place bytes of program memory from an address on; addresses at or above `PROG_MEM_BYTES` do not exist. -/
def State.placeBytes (s : State) (a : Nat) : List Byte → State
  | [] => s
  | v :: vs => (if a < Config.progMemBytes then s.setProgByte a v else s).placeBytes (a + 1) vs

end Sys2Proof.Machine
end

