-- ==== Sys2Proof/Machine/Step.lean ====
section
/-! DEFINITION. One step of the machine (spec/00_scope.md R12, spec/60_exceptions.md R316, R320, R336), and how the host
places an instruction where the step fetches it. -/

namespace Sys2Proof.Machine

/-- One step. The environment moves; a reset it makes is the step. Otherwise a sleeping core that nothing wakes stays as it
is; an awake one takes a pending enabled interrupt, or else fetches an instruction and runs it. -/
def step (s : State) : Host.Outcome State Fault Refusal :=
  match boundary s with
  | .reset t => .next t
  | .run s1 =>
    let s2 := s1.wakeIfRequested
    if s2.sleeping then .next s2
    else
      match pendingInterrupt s2 with
      | some lvl => outcome (takeInterrupt lvl s2)
      | none =>
        match fetch s2 with
        | .error e => .fault e
        | .ok i => exec i s2

/-- `s` with the instruction whose bits are `w` placed in program memory at the pc, where the next fetch reads it: a program
is placed from outside the machine (log 4). Two words are placed, the bits above `nbits` zero. In a state with no
environment move, awake and with no interrupt pending, such as the reset state, the next step runs it. -/
def State.withFetchWord (s : State) (nbits w : Nat) : State := s.placeBytes s.pc.toNat (tableBytes nbits w)

end Sys2Proof.Machine
end

