-- ==== Sys2Proof/Machine/Timing.lean ====
section
/-! DEFINITION. Cycle counts as a cost annotation (spec/70_reset_and_hazards.md R360, R370). No state depends on them and
the model carries no clock (D34; log 20). -/

namespace Sys2Proof.Machine

/-- The entries of the sources' cycles column (R370). -/
inductive CycleClass where
  /-- 1; 2 when the destination is PCL. -/
  | one
  /-- 2. -/
  | two
  /-- 1(2): 2 when the branch is taken. -/
  | branch
  /-- 1(2 o 3): 2 when it skips a one-word instruction, 3 when it skips a two-word one. -/
  | skip
  deriving DecidableEq, Repr

/-- The cycles column, by instruction (R370; BNZ by conflict C15). -/
def cycleClass : Instr → CycleClass
  | .movff _ _ | .lfsr _ _ | .tblrd | .tblrdPostInc | .tblrdPostDec | .tblrdPreInc | .tblwt | .tblwtPostInc
  | .tblwtPostDec | .tblwtPreInc | .bra _ | .call _ _ | .goto _ | .rcall _ | .retfie _ | .retlw _ | .ret _ => .two
  | .bc _ | .bn _ | .bnc _ | .bnn _ | .bnov _ | .bnz _ | .bov _ | .bz _ => .branch
  | .cpfseq _ _ | .cpfsgt _ _ | .cpfslt _ _ | .decfsz _ _ _ | .dcfsnz _ _ _ | .incfsz _ _ _ | .infsnz _ _ _
  | .tstfsz _ _ | .btfsc _ _ _ | .btfss _ _ _ => .skip
  | .movlb _ | .movlw _ | .movf _ _ _ | .movwf _ _ | .swapf _ _ _ | .addlw _ | .addwf _ _ _ | .addwfc _ _ _ | .mullw _
  | .mulwf _ _ | .sublw _ | .subwf _ _ _ | .subwfb _ _ _ | .clrf _ _ | .decf _ _ _ | .incf _ _ _ | .setf _ _ | .andlw _
  | .andwf _ _ _ | .comf _ _ _ | .iorlw _ | .iorwf _ _ _ | .negf _ _ | .rlcf _ _ _ | .rlncf _ _ _ | .rrcf _ _ _
  | .rrncf _ _ _ | .xorlw _ | .xorwf _ _ _ | .bcf _ _ _ | .bsf _ _ _ | .btg _ _ _ | .clrwdt | .nop | .nopF _ | .pop
  | .push | .reset | .sleep | .subfwb _ _ _ | .daw => .one

/-- The file operand an instruction writes back to, where it has one. -/
def destination (i : Instr) (s : State) : Target :=
  match i with
  | .movf f true a | .swapf f true a | .addwf f true a | .addwfc f true a | .subwf f true a | .subwfb f true a
  | .decf f true a | .decfsz f true a | .dcfsnz f true a | .incf f true a | .incfsz f true a | .infsnz f true a
  | .andwf f true a | .comf f true a | .iorwf f true a | .rlcf f true a | .rlncf f true a | .rrcf f true a
  | .rrncf f true a | .xorwf f true a | .subfwb f true a
  | .movwf f a | .clrf f a | .setf f a | .negf f a | .bcf f _ a | .bsf f _ a | .btg f _ a => target (ea f a s) s
  | _ => none

/-- A conditional branch whose condition holds (R260 to R267). -/
def branchTaken (i : Instr) (s : State) : Bool :=
  match i with
  | .bc _ => s.status.c
  | .bnc _ => !s.status.c
  | .bn _ => s.status.n
  | .bnn _ => !s.status.n
  | .bov _ => s.status.ov
  | .bnov _ => !s.status.ov
  | .bz _ => s.status.z
  | .bnz _ => !s.status.z
  | _ => false

/-- A first word of a two-word instruction (R120). -/
def firstOfTwo (x : IWord) : Bool :=
  match decodeFirst Config.hasSubfwbDaw x.hi x.lo with
  | .one _ | .illegal => false
  | _ => true

/-- The cycles an instruction takes when its run ends in `t` (R370). -/
def cycles (i : Instr) (s t : State) : Nat :=
  match cycleClass i with
  | .one => if destination i s = some 0xFF9#12 then 2 else 1
  | .two => 2
  | .branch => if branchTaken i s then 2 else 1
  | .skip =>
    if t.pc = s.pc + 4#21 then (if firstOfTwo (s.progWord (s.pc + 2#21).toNat) then 3 else 2)
    else if destination i s = some 0xFF9#12 then 2 else 1

end Sys2Proof.Machine
end

