-- ==== Sys2Proof/Safety.lean ====
section
/-! DEFINITION. The terms claims use: when a data operand can be read and written, the invariant every step keeps, what
counts as a safe run. -/

namespace Sys2Proof.Machine

/-! ### Operands -/

/-- The addresses of FSRnL and FSRnH (R23, R50). -/
def fsrBytes : FsrIndex → DAddr × DAddr
  | .f0 => (0xFE9#12, 0xFEA#12)
  | .f1 => (0xFE1#12, 0xFE2#12)
  | .f2 => (0xFD9#12, 0xFDA#12)

/-- No stepping window of FSRn is used while it points at its own bytes (R97 (b)). -/
def Resolvable (A : DAddr) (s : State) : Prop :=
  ∀ k n, windowAt A = some (k, n) → k.steps = true →
    pointerTarget k n s ≠ (fsrBytes n).1 ∧ pointerTarget k n s ≠ (fsrBytes n).2

/-- TOSL, TOSH, TOSU (R42). -/
def tosTargets : List Target := [some 0xFFD#12, some 0xFFE#12, some 0xFFF#12]

/-- The operand can be read: it resolves, and it is not the top of an empty stack. -/
def Readable (A : DAddr) (s : State) : Prop :=
  Resolvable A s ∧ (target A s ∈ tosTargets → s.sp ≠ 0#5)

/-- The operand can be written: it can be read and is not EECON2 (R107). -/
def Writable (A : DAddr) (s : State) : Prop :=
  Readable A s ∧ target A s ≠ some 0xFA7#12

/-- The operand of a `f,d,a` form can be used: read, and for `d` = 1 written back. -/
def FileOk (f : Byte) (d a : Bool) (s : State) : Prop :=
  Readable (ea f a s) s ∧ (d = true → Writable (ea f a s) s)

/-- What an operand reads as (R159): the byte at its target, once its pointer has moved. -/
def operand (A : DAddr) (s : State) : Byte := peek (target A s) (bump A s)

/-- The state once an operand has been resolved and read (R159). -/
def afterRead (A : DAddr) (s : State) : State := readEffect (target A s) (bump A s)

/-- The state after `writedest` of a result to a resolved operand (R98), by an instruction that affects a flag or none
(R31). -/
def written (d affects : Bool) (T : Target) (r : Byte) (s : State) : State :=
  if d then (if affects && T == some 0xFD8#12 then s else poke T r s) else { s with w := r }

/-- The state after `writedest` and `setflags` (R98, R31). -/
def stored (d : Bool) (T : Target) (r : Byte) (fw : FlagWrite) (s : State) : State :=
  (written d fw.affects T r s).setFlags fw

/-- The outcome of an instruction that reads `f`, stores `r` by `d` and sets the flags named (R159). -/
def FileResult (i : Instr) (f : Byte) (d a : Bool) (s : State) (r : Byte) (fw : FlagWrite) : Prop :=
  exec i s = .next (stored d (target (ea f a s) s) r fw ((afterRead (ea f a s) s).advance 2))

/-- As `FileResult`, with no flag, and with the skip of the next word where `skips` (R135). -/
def CountResult (i : Instr) (f : Byte) (d a : Bool) (s : State) (r : Byte) (skips : Bool) : Prop :=
  let t := stored d (target (ea f a s) s) r .nothing ((afterRead (ea f a s) s).advance 2)
  exec i s = .next (if skips then t.jump (s.pc + 4#21) else t)

/-- The outcome of an instruction that reads `f` and skips the next word where `skips` (R135). -/
def TestResult (i : Instr) (f : Byte) (a : Bool) (s : State) (skips : Bool) : Prop :=
  exec i s = .next ((afterRead (ea f a s) s).advance (if skips then 4 else 2))

/-- The outcome of an instruction that stores `v` to `f` without reading it (R164, R198, R205). -/
def StoreResult (i : Instr) (f : Byte) (a : Bool) (s : State) (v : Byte) (fw : FlagWrite) : Prop :=
  exec i s = .next (stored true (target (ea f a s) s) v fw ((bump (ea f a s) s).advance 2))

/-- MOVFF can run: neither address is one R163 forbids, the source can be read, and the destination, resolved after it,
can be written. -/
def MovffOk (fs fd : DAddr) (s : State) : Prop :=
  movffForbidden fd = false ∧ fs ≠ 0xFF9#12 ∧ Readable fs s ∧ Writable fd ((afterRead fs s).advance 4)

/-- The resolved data address an instruction writes, where it writes one. -/
def writtenAddress (i : Instr) (s : State) : Target :=
  match i with
  | .movff fs fd => target fd ((afterRead fs s).advance 4)
  | _ => destination i s

/-- A plain storage cell: general-purpose RAM, or a peripheral register's byte. -/
def storageCell (a : DAddr) : Bool :=
  match cellAt a with
  | .gpr => true
  | .sfr (.periph _) => true
  | _ => false

/-! ### The invariant -/

/-- What holds at reset and after every step: both memories in canonical form and within their space; the pc even (R27);
unimplemented bits of the interrupt registers 0 (R62); STKFUL, STKUNF and flash_write_busy clear (R41, R55). -/
structure State.Inv (s : State) : Prop where
  data_wf : Memory.wf Config.dataFill s.data
  data_cells : ∀ c ∈ s.data, c.1 < 4096 ∧ storageCell (BitVec.ofNat 12 c.1) = true
  prog_wf : Memory.wf Config.progFill s.prog
  prog_bound : ∀ c ∈ s.prog, c.1 < Config.progMemBytes
  pc_even : s.pc.getLsbD 0 = false
  intcon2_bits : s.intcon2 &&& ~~~intcon2Mask = 0#8
  intcon3_bits : s.intcon3 &&& ~~~intcon3Mask = 0#8
  irq1_bits : (s.pir1 ||| s.pie1 ||| s.ipr1) &&& ~~~pspMask = 0#8
  irq2_bits : (s.pir2 ||| s.pie2 ||| s.ipr2) &&& ~~~irq2Mask = 0#8
  stack_flags : s.stkful = false ∧ s.stkunf = false
  no_flash_write : s.flashWriteBusy = false

/-! ### Frames -/

/-- What no data operand reaches: program memory, the hidden registers and the environment. -/
structure CoreFrame (s t : State) : Prop where
  prog : t.prog = s.prog
  fast : t.fast = s.fast
  hold : t.hold = s.hold
  isrLevel : t.isrLevel = s.isrLevel
  sleeping : t.sleeping = s.sleeping
  wdt : t.wdt = s.wdt
  stkful : t.stkful = s.stkful
  stkunf : t.stkunf = s.stkunf
  flashWriteBusy : t.flashWriteBusy = s.flashWriteBusy
  env : t.env = s.env

/-- What an instruction that stores to the operand at `A` may change: the pc, the flags, the pointer of `A`'s window, the
PCL latches when it touches PCL, the draw counter, and the one register or byte at the target. Everything else is as it
was. -/
structure StoreFrame (A : DAddr) (s t : State) : Prop where
  core : CoreFrame s t
  memory : ∀ b, target A s ≠ some b → t.ramAt b = s.ramAt b
  w : target A s ≠ some 0xFE8#12 → t.w = s.w
  bsr : target A s ≠ some 0xFE0#12 → t.bsr = s.bsr
  fsr : ∀ n, target A s ≠ some (fsrBytes n).1 → target A s ≠ some (fsrBytes n).2 → t.fsr n = (bump A s).fsr n
  pclath : target A s ≠ some 0xFFA#12 → target A s ≠ some 0xFF9#12 → t.pclath = s.pclath
  pclatu : target A s ≠ some 0xFFB#12 → target A s ≠ some 0xFF9#12 → t.pclatu = s.pclatu
  prodh : target A s ≠ some 0xFF4#12 → t.prodh = s.prodh
  prodl : target A s ≠ some 0xFF3#12 → t.prodl = s.prodl
  tblptr : target A s ∉ [some 0xFF6#12, some 0xFF7#12, some 0xFF8#12] → t.tblptr = s.tblptr
  tablat : target A s ≠ some 0xFF5#12 → t.tablat = s.tablat
  sp : target A s ≠ some 0xFFC#12 → t.sp = s.sp
  stack : target A s ∉ tosTargets → t.stack = s.stack
  stack_rest : ∀ j, j ≠ 0#5 → j ≠ s.sp → t.stackEntry j = s.stackEntry j
  intcon : target A s ≠ some 0xFF2#12 → t.intcon = s.intcon
  intcon2 : target A s ≠ some 0xFF1#12 → t.intcon2 = s.intcon2
  intcon3 : target A s ≠ some 0xFF0#12 → t.intcon3 = s.intcon3
  rcon : target A s ≠ some 0xFD0#12 → t.rcon = s.rcon
  pir1 : target A s ≠ some 0xF9E#12 → t.pir1 = s.pir1
  pie1 : target A s ≠ some 0xF9D#12 → t.pie1 = s.pie1
  ipr1 : target A s ≠ some 0xF9F#12 → t.ipr1 = s.ipr1
  pir2 : target A s ≠ some 0xFA1#12 → t.pir2 = s.pir2
  pie2 : target A s ≠ some 0xFA0#12 → t.pie2 = s.pie2
  ipr2 : target A s ≠ some 0xFA2#12 → t.ipr2 = s.ipr2

/-- What an instruction that only reads the operand at `A` may change beside the pc: the pointer of `A`'s window, the PCL
latches when it reads PCL, the draw counter when it reads a peripheral. -/
structure ReadFrame (A : DAddr) (s t : State) : Prop where
  rest : t = { s with pc := t.pc, w := t.w, status := t.status, prodh := t.prodh, prodl := t.prodl, fsr0 := (bump A s).fsr0,
                      fsr1 := (bump A s).fsr1, fsr2 := (bump A s).fsr2, pclath := t.pclath, pclatu := t.pclatu,
                      draws := t.draws }
  pcl : target A s ≠ some 0xFF9#12 → t.pclath = s.pclath ∧ t.pclatu = s.pclatu
  draws : (∀ a p, target A s = some a → cellAt a ≠ .sfr (.periph p)) → t.draws = s.draws

/-! ### Instruction classes (R25, R35) -/

/-- The flags an instruction writes through the flag logic (R35), `true` for a flag it may change. -/
def flagsListed : Instr → Status
  | .addlw _ | .addwf _ _ _ | .addwfc _ _ _ | .sublw _ | .subwf _ _ _ | .subwfb _ _ _ | .subfwb _ _ _ | .decf _ _ _
  | .incf _ _ _ | .negf _ _ => ⟨true, true, true, true, true⟩
  | .rlcf _ _ _ | .rrcf _ _ _ => ⟨true, false, true, false, true⟩
  | .movf _ _ _ | .andlw _ | .andwf _ _ _ | .comf _ _ _ | .iorlw _ | .iorwf _ _ _ | .xorlw _ | .xorwf _ _ _
  | .rlncf _ _ _ | .rrncf _ _ _ => ⟨true, false, true, false, false⟩
  | .clrf _ _ => ⟨false, false, true, false, false⟩
  | .daw => ⟨false, false, false, false, true⟩
  | .movlb _ | .movlw _ | .movff _ _ | .movwf _ _ | .swapf _ _ _ | .tblrd | .tblrdPostInc | .tblrdPostDec | .tblrdPreInc
  | .tblwt | .tblwtPostInc | .tblwtPostDec | .tblwtPreInc | .mullw _ | .mulwf _ _ | .setf _ _ | .cpfseq _ _ | .cpfsgt _ _
  | .cpfslt _ _ | .decfsz _ _ _ | .dcfsnz _ _ _ | .incfsz _ _ _ | .infsnz _ _ _ | .tstfsz _ _ | .btfsc _ _ _
  | .btfss _ _ _ | .lfsr _ _ | .bcf _ _ _ | .bsf _ _ _ | .btg _ _ _ | .bc _ | .bn _ | .bnc _ | .bnn _ | .bnov _
  | .bnz _ | .bov _ | .bz _ | .bra _ | .call _ _ | .clrwdt | .goto _ | .nop | .nopF _ | .pop | .push | .rcall _
  | .reset | .retfie _ | .retlw _ | .ret _ | .sleep => ⟨false, false, false, false, false⟩

/-- Every flag an instruction does not list is as it was. -/
structure FlagsKept (i : Instr) (s t : State) : Prop where
  n : (flagsListed i).n = false → t.status.n = s.status.n
  ov : (flagsListed i).ov = false → t.status.ov = s.status.ov
  z : (flagsListed i).z = false → t.status.z = s.status.z
  dc : (flagsListed i).dc = false → t.status.dc = s.status.dc
  c : (flagsListed i).c = false → t.status.c = s.status.c

/-- An instruction whose status list is "none" (R35). -/
def listsNoFlag (i : Instr) : Prop := flagsListed i = Status.zero

/-- The instructions R25 names as setting the pc, other than the skips. -/
def transfers : Instr → Bool
  | .bc _ | .bn _ | .bnc _ | .bnn _ | .bnov _ | .bnz _ | .bov _ | .bz _ | .bra _ | .rcall _ | .call _ _ | .goto _
  | .ret _ | .retlw _ | .retfie _ | .reset => true
  | _ => false

/-- The file operand of an instruction, its `f` and `a` fields (R122 to R124). -/
def fileOperand : Instr → Option (Byte × Bool)
  | .movf f _ a | .swapf f _ a | .addwf f _ a | .addwfc f _ a | .subwf f _ a | .subwfb f _ a | .subfwb f _ a
  | .decf f _ a | .incf f _ a | .decfsz f _ a | .dcfsnz f _ a | .incfsz f _ a | .infsnz f _ a | .andwf f _ a
  | .comf f _ a | .iorwf f _ a | .xorwf f _ a | .rlcf f _ a | .rlncf f _ a | .rrcf f _ a | .rrncf f _ a
  | .movwf f a | .mulwf f a | .clrf f a | .setf f a | .negf f a | .cpfseq f a | .cpfsgt f a | .cpfslt f a | .tstfsz f a
  | .bcf f _ a | .bsf f _ a | .btg f _ a | .btfsc f _ a | .btfss f _ a => some (f, a)
  | _ => none

/-- The `f,d,a` forms (format BYTE_D, R121). -/
def aluForms (f : Byte) (d a : Bool) : List Instr :=
  [.movf f d a, .swapf f d a, .addwf f d a, .addwfc f d a, .subwf f d a, .subwfb f d a, .subfwb f d a, .decf f d a,
    .incf f d a, .decfsz f d a, .dcfsnz f d a, .incfsz f d a, .infsnz f d a, .andwf f d a, .comf f d a, .iorwf f d a,
    .xorwf f d a, .rlcf f d a, .rlncf f d a, .rrcf f d a, .rrncf f d a]

/-- The forms that read `f` and always write it back. -/
def modifyForms (f : Byte) (b : BitVec 3) (a : Bool) : List Instr := [.negf f a, .bcf f b a, .bsf f b a, .btg f b a]

/-- The forms that write `f` without reading it. -/
def storeForms (f : Byte) (a : Bool) : List Instr := [.movwf f a, .clrf f a, .setf f a]

/-- The forms that read `f` and only skip or not. -/
def testForms (f : Byte) (b : BitVec 3) (a : Bool) : List Instr :=
  [.cpfseq f a, .cpfsgt f a, .cpfslt f a, .tstfsz f a, .btfsc f b a, .btfss f b a]

/-! ### Interrupt sources as register bits (R312) -/

/-- A bit of a register, by its data address and its number, as a data read shows it. -/
def regBit (r : DAddr × Nat) (s : State) : Bool := (peek (some r.1) s).getLsbD r.2

/-- One row of R312: where a source's flag, enable and priority bits are; INT0 has no priority bit. -/
structure IrqRow where
  flag : DAddr × Nat
  enable : DAddr × Nat
  priority : Option (DAddr × Nat)
  deriving DecidableEq, Repr

/-- The core sources of R312: INT0, INT1, INT2, Timer0, PORTB change. -/
def coreRows : List IrqRow :=
  [⟨(0xFF2#12, 1), (0xFF2#12, 4), none⟩, ⟨(0xFF0#12, 0), (0xFF0#12, 3), some (0xFF0#12, 6)⟩,
    ⟨(0xFF0#12, 1), (0xFF0#12, 4), some (0xFF0#12, 7)⟩, ⟨(0xFF2#12, 2), (0xFF2#12, 5), some (0xFF1#12, 2)⟩,
    ⟨(0xFF2#12, 0), (0xFF2#12, 3), some (0xFF1#12, 0)⟩]

/-- The peripheral sources of R312: PIR1 bits 7:0 and PIR2 bits 4:0, with PIE and IPR at the same positions. -/
def periphRows : List IrqRow :=
  (List.range 8).map (fun n => ⟨(0xF9E#12, n), (0xF9D#12, n), some (0xF9F#12, n)⟩) ++
    (List.range 5).map (fun n => ⟨(0xFA1#12, n), (0xFA0#12, n), some (0xFA2#12, n)⟩)

/-- `req(x)` (R313). -/
def IrqRow.requests (r : IrqRow) (s : State) : Prop := regBit r.flag s = true ∧ regBit r.enable s = true

/-- `hi(x)` (R313). -/
def IrqRow.high (r : IrqRow) (s : State) : Prop := ∀ p, r.priority = some p → regBit p s = true

/-! ### Runs -/

/-- The environment makes no move and no interrupt is pending: the next step fetches and runs an instruction. -/
def Quiet (s : State) : Prop :=
  s.env = [] ∧ s.sleeping = false ∧ pendingInterrupt s = none

/-- A safe run of `n` steps: none of them stops. -/
def SafeRun (n : Nat) (s : State) : Prop := ∃ t, Sys2Proof.core.run n s = .next t

end Sys2Proof.Machine
end

