-- ==== Sys2Proof/Certificates/Slice0/Obligations.lean ====
section
/-! DEFINITION. The statements for the provers. Each docstring names the rule of spec/ it formalises, and says where it
rests on a decision of the spec (92_eei_decisions.md) or on an entry of notes/assumptions. -/

open Sys2Proof Sys2Proof.Machine

/-! ### Encoding -/

/-- Decoding an encoded well-formed instruction gives it back, with the bytes after it left, on a device with or without
the two secondary-only instructions. The formats are R121's; the split of the long literals is D9 and D10. -/
def Obligations.DecodeOfEncode : Prop :=
  ∀ (hasSubfwbDaw : Bool) (i : Instr) (rest : List Byte), i.wellFormedOn hasSubfwbDaw = true →
    decodeOn hasSubfwbDaw (encodeBytes i ++ rest) = .ok i rest

/-- What decodes to an instruction is that instruction's own encoding, and the instruction is well-formed: no two byte
strings mean one instruction and no bit is ignored. -/
def Obligations.EncodeOfDecode : Prop :=
  ∀ (hasSubfwbDaw : Bool) (bs : List Byte) (i : Instr) (rest : List Byte), decodeOn hasSubfwbDaw bs = .ok i rest →
    bs = encodeBytes i ++ rest ∧ i.wellFormedOn hasSubfwbDaw = true

/-- The decoder follows the opcode table (R140): a first word that a row owns by its mask and pattern decodes to that row's
mnemonic, and a word no row owns is rejected. The secondary-only rows count only with `HAS_SUBFWB_DAW` (D1). -/
def Obligations.DecoderFollowsOpcodeTable : Prop :=
  ∀ (hasSubfwbDaw : Bool) (x : IWord),
    let rows := rowsDataMovement ++ rowsArithmetic ++ rowsLogic ++ rowsBits ++ rowsControl ++
      (if hasSubfwbDaw then rowsSecondary else [])
    (∀ r ∈ rows, r.owns x = true → (decodeFirst hasSubfwbDaw x.hi x.lo).mnemonic? = some r.mnemonic) ∧
      ((∀ r ∈ rows, r.owns x = false) → decodeFirst hasSubfwbDaw x.hi x.lo = .illegal)

/-- The words that are rejected as illegal are exactly those R142 lists (the rejection is decision D3). -/
def Obligations.UnassignedWords : Prop :=
  ∀ (hasSubfwbDaw : Bool) (x : IWord) (rest : List Byte),
    decodeOn hasSubfwbDaw (x.lo :: x.hi :: rest) = .illegalInstruction ↔
      (0x0001 ≤ x.toNat ∧ x.toNat ≤ 0x0002) ∨ (0x0014 ≤ x.toNat ∧ x.toNat ≤ 0x00FE) ∨
        (0x0110 ≤ x.toNat ∧ x.toNat ≤ 0x01FF) ∨ (0xE800 ≤ x.toNat ∧ x.toNat ≤ 0xEBFF) ∨
        (0xEE30 ≤ x.toNat ∧ x.toNat ≤ 0xEEFF) ∨
        (hasSubfwbDaw = false ∧ (x.toNat = 0x0007 ∨ (0x5400 ≤ x.toNat ∧ x.toNat ≤ 0x57FF)))

/-- The pairs of words that are rejected for their second word are exactly those of R134 (decision D13): MOVFF, CALL and
GOTO need 1111 in bits 15:12 of the second word, LFSR needs 1111 0000 in bits 15:8. -/
def Obligations.MalformedSecondWords : Prop :=
  ∀ (hasSubfwbDaw : Bool) (x y : IWord) (rest : List Byte),
    decodeOn hasSubfwbDaw (x.lo :: x.hi :: y.lo :: y.hi :: rest) = .malformedSecondWord ↔
      (((0xC000 ≤ x.toNat ∧ x.toNat ≤ 0xCFFF) ∨ (0xEC00 ≤ x.toNat ∧ x.toNat ≤ 0xEDFF) ∨
          (0xEF00 ≤ x.toNat ∧ x.toNat ≤ 0xEFFF)) ∧ y.extractLsb' 12 4 ≠ 0xF#4) ∨
        ((0xEE00 ≤ x.toNat ∧ x.toNat ≤ 0xEE2F) ∧ y.extractLsb' 8 8 ≠ 0xF0#8)

/-- R120: an instruction is one word or two; the two-word ones are exactly MOVFF, LFSR, CALL and GOTO; the decoder tells which
from bits of the first word alone, and takes one word or two accordingly. -/
def Obligations.FirstWordTellsLength : Prop :=
  let two (x : IWord) : Prop :=
    x.extractLsb' 12 4 = 0b1100#4 ∨ x.extractLsb' 9 7 = 0b1110110#7 ∨ x.extractLsb' 8 8 = 0b11101111#8 ∨
      x.extractLsb' 6 10 = 0b1110111000#10
  (∀ i : Instr, i.wellFormed = true →
      ∃ x rest, encode i = x :: rest ∧ rest.length ≤ 1 ∧ (rest.length = 1 ↔ two x) ∧
        (rest.length = 1 ↔
          (∃ fs fd, i = .movff fs fd) ∨ (∃ ff k, i = .lfsr ff k) ∨ (∃ k s, i = .call k s) ∨ ∃ k, i = .goto k)) ∧
    ∀ (hasSubfwbDaw : Bool) (x : IWord) (after : List Byte) (i : Instr) (rest : List Byte),
      decodeOn hasSubfwbDaw (x.lo :: x.hi :: after) = .ok i rest →
        (two x → after.length = rest.length + 2) ∧ (¬ two x → after = rest)

/-- R122 and R127, whole, and the fields of R124: where format BYTE_D has its operation, `d`, `a` and `f`, format BIT its
operation, `b`, `a` and `f`, format BRANCH11 its operation and `n`; the operation bits tell the instructions of a format
apart. -/
def Obligations.FormatFields : Prop :=
  (∀ n < 21, ∃ op : BitVec 6, ∀ (f : Byte) (d a : Bool),
      ((aluForms f d a)[n]?).map encode = some [op ++ BitVec.ofBool d ++ BitVec.ofBool a ++ f]) ∧
    (∀ n < 5, ∃ op : BitVec 4, ∀ (f : Byte) (b : BitVec 3) (a : Bool),
      ([Instr.bcf f b a, .bsf f b a, .btfsc f b a, .btfss f b a, .btg f b a][n]?).map encode =
        some [op ++ b ++ BitVec.ofBool a ++ f]) ∧
    (∀ n : BitVec 11, encode (.bra n) = [0b1101#4 ++ 0b0#1 ++ n] ∧ encode (.rcall n) = [0b1101#4 ++ 0b1#1 ++ n]) ∧
    ∀ (f : Byte) (d a : Bool) (b : BitVec 3),
      (((aluForms f d a).map fun i => (encode i).map fun x => x.extractLsb' 10 6).Nodup) ∧
        (([Instr.bcf f b a, .bsf f b a, .btfsc f b a, .btfss f b a, .btg f b a].map fun i =>
            (encode i).map fun x => x.extractLsb' 12 4).Nodup)

/-- Words from the examples of spec/40 to spec/45 decode to the instructions they stand for, one or two of each family. -/
def Obligations.ExampleWordsDecode : Prop :=
  decode [0x05#8, 0x01#8] = .ok (.movlb 5#4) [] ∧
    decode [0x20#8, 0x50#8] = .ok (.movf 0x20#8 false false) [] ∧
    decode [0x23#8, 0xC1#8, 0xE8#8, 0xFF#8] = .ok (.movff 0x123#12 0xFE8#12) [] ∧
    decode [0x0B#8, 0x00#8] = .ok .tblrdPreInc [] ∧
    decode [0x21#8, 0x22#8] = .ok (.addwfc 0x21#8 true false) [] ∧
    decode [0xC4#8, 0x0D#8] = .ok (.mullw 0xC4#8) [] ∧
    decode [0x20#8, 0x5A#8] = .ok (.subwfb 0x20#8 true false) [] ∧
    decode [0x23#8, 0xEE#8, 0xAB#8, 0xF0#8] = .ok (.lfsr 2#2 0x3AB#12) [] ∧
    decode [0x20#8, 0x66#8] = .ok (.tstfsz 0x20#8 false) [] ∧
    decode [0x20#8, 0x96#8] = .ok (.bcf 0x20#8 3#3 false) [] ∧
    decode [0x20#8, 0xAE#8] = .ok (.btfss 0x20#8 7#3 false) [] ∧
    decode [0x05#8, 0xE2#8] = .ok (.bc 0x05#8) [] ∧
    decode [0x10#8, 0xD8#8] = .ok (.rcall 0x010#11) [] ∧
    decode [0x34#8, 0xEC#8, 0x12#8, 0xF0#8] = .ok (.call 0x01234#20 false) [] ∧
    decode [0x12#8, 0xF0#8] = .ok (.nopF 0x012#12) [] ∧
    decode [0x11#8, 0x00#8] = .ok (.retfie true) [] ∧
    decode [0xFF#8, 0x00#8] = .ok .reset [] ∧
    decode [0x20#8, 0x56#8] = .ok (.subfwb 0x20#8 true false) []

/-! ### The step -/

/-- R12: a step runs the instruction the bytes at the pc decode to, once the environment has moved without a reset and no
interrupt is to be taken. That a core woken by a request runs it in the same step, and that every request wakes it, is the
model's choice, not R12's (log 11). With no environment move and the core awake the step is `exec` at the state itself. -/
def Obligations.StepRunsDecodedInstruction : Prop :=
  (∀ (s s1 : State) (i : Instr) (rest : List Byte), boundary s = .run s1 → s1.wakeIfRequested.sleeping = false →
      pendingInterrupt s1.wakeIfRequested = none → decode (fetchBytes s1.wakeIfRequested) = .ok i rest →
      step s = exec i s1.wakeIfRequested) ∧
    ∀ (s : State) (i : Instr) (rest : List Byte), Quiet s → decode (fetchBytes s) = .ok i rest → step s = exec i s

/-- A fetch that finds no instruction stops the model (R82 D33, R134 D13, R142 D3): a word outside program memory, a second
word outside it, a word of no row, a malformed second word. -/
def Obligations.FetchFaults : Prop :=
  ∀ s : State, Quiet s →
    (Config.progMemBytes ≤ s.pc.toNat + 1 → step s = .fault .fetchOutsideProgram) ∧
      (s.pc.toNat + 1 < Config.progMemBytes → Config.progMemBytes ≤ s.pc.toNat + 3 →
        firstOfTwo (s.progWord s.pc.toNat) = true → step s = .fault .fetchOutsideProgram) ∧
      (decode (fetchBytes s) = .illegalInstruction → step s = .fault .illegalInstruction) ∧
      (decode (fetchBytes s) = .malformedSecondWord → step s = .fault .malformedSecondWord)

/-! ### Literal instructions -/

/-- R160 and R161, whole: MOVLB and MOVLW write their literal, the pc and nothing else; their encodings and cycles; the words
above MOVLB's are unassigned and BSR's upper bits stay 0. That the pc, where it is even and does not pass the end of its range,
is 2 further on is R25's; what it is elsewhere is in PcAdvance. -/
def Obligations.LoadLiteral : Prop :=
  (∀ (k : BitVec 4) (s : State),
      (∃ t, exec (.movlb k) s = .next t ∧ t = { s with bsr := k, pc := t.pc } ∧
        (s.pc.getLsbD 0 = false → s.pc.toNat + 2 < 2 ^ 21 → t.pc.toNat = s.pc.toNat + 2) ∧
        peek (some 0xFE0#12) t = 0b0000#4 ++ k) ∧
        encode (.movlb k) = [mkWord 0b00000001#8 (0b0000#4 ++ k)] ∧ cycleClass (.movlb k) = .one) ∧
    (∀ (hasSubfwbDaw : Bool) (lo : Byte), 0x10 ≤ lo.toNat → decodeFirst hasSubfwbDaw 0x01#8 lo = .illegal) ∧
    ∀ (k : Byte) (s : State),
      (∃ t, exec (.movlw k) s = .next t ∧ t = { s with w := k, pc := t.pc } ∧
        (s.pc.getLsbD 0 = false → s.pc.toNat + 2 < 2 ^ 21 → t.pc.toNat = s.pc.toNat + 2)) ∧
        encode (.movlw k) = [mkWord 0b00001110#8 k] ∧ cycleClass (.movlw k) = .one

/-- R220, R226, R235: the literal logic instructions write W, Z and N (R34, decision D4) and nothing else but the pc; their
encodings and cycles. -/
def Obligations.LiteralLogic : Prop :=
  ∀ (k : Byte) (s : State),
    let after (r : Byte) : State :=
      { s with w := r, status := { s.status with z := decide (r = 0#8), n := r.getLsbD 7 }, pc := evenPc (s.pc + 2#21) }
    (exec (.andlw k) s = .next (after (s.w &&& k)) ∧ encode (.andlw k) = [mkWord 0b00001011#8 k] ∧
        cycleClass (.andlw k) = .one) ∧
      (exec (.iorlw k) s = .next (after (s.w ||| k)) ∧ encode (.iorlw k) = [mkWord 0b00001001#8 k] ∧
        cycleClass (.iorlw k) = .one) ∧
      (exec (.xorlw k) s = .next (after (s.w ^^^ k)) ∧ encode (.xorlw k) = [mkWord 0b00001010#8 k] ∧
        cycleClass (.xorlw k) = .one)

/-- R190, R195, R193: ADDLW and SUBLW write W and the five flags (SUBLW is k - W); MULLW writes the unsigned product to
PRODH:PRODL and no flag. The flags are decision D4, unsigned multiplication D18. -/
def Obligations.LiteralArithmetic : Prop :=
  ∀ (k : Byte) (s : State),
    exec (.addlw k) s =
        .next { s with w := (add8 s.w k false).1, status := s.status.setFlags (add8 s.w k false).2,
                       pc := evenPc (s.pc + 2#21) } ∧
      exec (.sublw k) s =
        .next { s with w := (sub8 k s.w false).1, status := s.status.setFlags (sub8 k s.w false).2,
                       pc := evenPc (s.pc + 2#21) } ∧
      ∃ t, exec (.mullw k) s = .next t ∧ t.prodh.toNat * 256 + t.prodl.toNat = s.w.toNat * k.toNat ∧
        t = { s with prodh := t.prodh, prodl := t.prodl, pc := evenPc (s.pc + 2#21) }

/-- R302 with the spec's default algorithm (D30, log 19): DAW writes W and C alone; after an addition of two packed-BCD bytes
with a carry in it gives their decimal sum; it never clears C. -/
def Obligations.DecimalAdjust : Prop :=
  (∀ s : State, exec .daw s = .next { s with w := (daw8 s.w s.status.c s.status.dc).1,
                                             status := { s.status with c := (daw8 s.w s.status.c s.status.dc).2 },
                                             pc := evenPc (s.pc + 2#21) }) ∧
    (∀ (w : Byte) (dc : Bool), (daw8 w true dc).2 = true) ∧
    ∀ (a b : Byte) (cin : Bool),
      let digits (x : Byte) : Nat := 10 * (x.toNat / 16) + x.toNat % 16
      let bcd (x : Byte) : Prop := x.toNat / 16 ≤ 9 ∧ x.toNat % 16 ≤ 9
      let sum := add8 a b cin
      let out := daw8 sum.1 (sum.2.c == some true) (sum.2.dc == some true)
      bcd a → bcd b → bcd out.1 ∧ digits out.1 + 100 * out.2.toNat = digits a + digits b + cin.toNat

/-! ### Byte-oriented instructions -/

/-- R191, R192, R196, R197, R199, R202, R301: the arithmetic `f,d,a` forms complete whenever their operand can be used, with
the operands in the order the rules give, the result to W or to `f`, and the five flags (D4). -/
def Obligations.FileArithmetic : Prop :=
  ∀ (f : Byte) (d a : Bool) (s : State), FileOk f d a s →
    let v := operand (ea f a s) s
    let result (i : Instr) (p : Byte × FlagWrite) : Prop := FileResult i f d a s p.1 p.2
    result (.addwf f d a) (add8 s.w v false) ∧ result (.addwfc f d a) (add8 s.w v s.status.c) ∧
      result (.subwf f d a) (sub8 v s.w false) ∧ result (.subwfb f d a) (sub8 v s.w (!s.status.c)) ∧
      result (.subfwb f d a) (sub8 s.w v (!s.status.c)) ∧ result (.incf f d a) (add8 v 1#8 false) ∧
      result (.decf f d a) (sub8 v 1#8 false)

/-- R162, R165, R221, R222, R227, R236: the move and logic `f,d,a` forms complete whenever their operand can be used; SWAPF
writes no flag, the others Z and N from the result. -/
def Obligations.FileLogic : Prop :=
  ∀ (f : Byte) (d a : Bool) (s : State), FileOk f d a s →
    let v := operand (ea f a s) s
    let zn (i : Instr) (r : Byte) : Prop :=
      FileResult i f d a s r { z := some (decide (r = 0#8)), n := some (r.getLsbD 7) }
    zn (.movf f d a) v ∧ zn (.andwf f d a) (s.w &&& v) ∧ zn (.iorwf f d a) (s.w ||| v) ∧ zn (.xorwf f d a) (s.w ^^^ v) ∧
      zn (.comf f d a) (BitVec.ofNat 8 (255 - v.toNat)) ∧
      FileResult (.swapf f d a) f d a s (BitVec.ofNat 8 (v.toNat % 16 * 16 + v.toNat / 16)) .nothing

/-- R230 to R233: the rotates move one bit; through carry they are a rotate of nine bits, without it of eight, and then C is
neither read nor written (bit movement: decision D4). -/
def Obligations.FileRotates : Prop :=
  ∀ (f : Byte) (d a : Bool) (s : State), FileOk f d a s →
    let v := operand (ea f a s) s
    let zn (r : Byte) : FlagWrite := { z := some (decide (r = 0#8)), n := some (r.getLsbD 7) }
    (∃ r : Byte, r.toNat = v.toNat * 2 % 256 + s.status.c.toNat ∧
        FileResult (.rlcf f d a) f d a s r { zn r with c := some (v.getLsbD 7) }) ∧
      (∃ r : Byte, r.toNat = v.toNat * 2 % 256 + v.toNat / 128 ∧ FileResult (.rlncf f d a) f d a s r (zn r)) ∧
      (∃ r : Byte, r.toNat = v.toNat / 2 + 128 * s.status.c.toNat ∧
        FileResult (.rrcf f d a) f d a s r { zn r with c := some (v.getLsbD 0) }) ∧
      (∃ r : Byte, r.toNat = v.toNat / 2 + 128 * (v.toNat % 2) ∧ FileResult (.rrncf f d a) f d a s r (zn r))

/-- R229, R250, R251, R254: NEGF, BCF, BSF and BTG read the byte, change it and write it back; NEGF sets the flags of 0 - f
(D4), the bit instructions change bit `b` alone and set no flag. -/
def Obligations.NegateAndBitChange : Prop :=
  ∀ (f : Byte) (b : BitVec 3) (a : Bool) (s : State), FileOk f true a s →
    let v := operand (ea f a s) s
    FileResult (.negf f a) f true a s (sub8 0#8 v false).1 (sub8 0#8 v false).2 ∧
      (∃ r : Byte, (∀ n < 8, r.getLsbD n = if n = b.toNat then false else v.getLsbD n) ∧
        FileResult (.bcf f b a) f true a s r .nothing) ∧
      (∃ r : Byte, (∀ n < 8, r.getLsbD n = if n = b.toNat then true else v.getLsbD n) ∧
        FileResult (.bsf f b a) f true a s r .nothing) ∧
      (∃ r : Byte, (∀ n < 8, r.getLsbD n = if n = b.toNat then !v.getLsbD n else v.getLsbD n) ∧
        FileResult (.btg f b a) f true a s r .nothing)

/-- R164, R198, R205: MOVWF, CLRF and SETF store to `f` without reading it; CLRF sets Z and leaves the other flags
(conflict C14). -/
def Obligations.StoreToFile : Prop :=
  ∀ (f : Byte) (a : Bool) (s : State), Writable (ea f a s) s →
    StoreResult (.movwf f a) f a s s.w .nothing ∧ StoreResult (.clrf f a) f a s 0x00#8 { z := some true } ∧
      StoreResult (.setf f a) f a s 0xFF#8 .nothing

/-- R200, R201, R203, R204, R135: the counting skips store the count and skip the next word when it is 0 (or is not 0), and
set no flag. That a skip passes over one word is decision D12; that a skip stands over a write to PCL is log 8. -/
def Obligations.CountAndSkip : Prop :=
  ∀ (f : Byte) (d a : Bool) (s : State), FileOk f d a s →
    let v := operand (ea f a s) s
    let down := BitVec.ofNat 8 (v.toNat + 255)
    let up := BitVec.ofNat 8 (v.toNat + 1)
    CountResult (.decfsz f d a) f d a s down (decide (v.toNat = 1)) ∧
      CountResult (.dcfsnz f d a) f d a s down (decide (v.toNat ≠ 1)) ∧
      CountResult (.incfsz f d a) f d a s up (decide (v.toNat = 255)) ∧
      CountResult (.infsnz f d a) f d a s up (decide (v.toNat ≠ 255))

/-- R223, R224, R225, R234, R252, R253: the compares and tests skip by an unsigned comparison (D18), a zero byte or a bit,
and change nothing else but what reading the operand changes. -/
def Obligations.CompareAndTest : Prop :=
  ∀ (f : Byte) (b : BitVec 3) (a : Bool) (s : State), Readable (ea f a s) s →
    let v := operand (ea f a s) s
    TestResult (.cpfseq f a) f a s (decide (v = s.w)) ∧ TestResult (.cpfsgt f a) f a s (decide (v.toNat > s.w.toNat)) ∧
      TestResult (.cpfslt f a) f a s (decide (v.toNat < s.w.toNat)) ∧ TestResult (.tstfsz f a) f a s (decide (v = 0#8)) ∧
      TestResult (.btfsc f b a) f a s (!v.getLsbD b.toNat) ∧ TestResult (.btfss f b a) f a s (v.getLsbD b.toNat)

/-- R194: MULWF writes the unsigned product of W and `f` to PRODH:PRODL (D18), the operand read before it. -/
def Obligations.MultiplyFile : Prop :=
  ∀ (f : Byte) (a : Bool) (s : State), Readable (ea f a s) s →
    ∃ t, exec (.mulwf f a) s = .next t ∧
      t.prodh.toNat * 256 + t.prodl.toNat = s.w.toNat * (operand (ea f a s) s).toNat ∧
      t = { afterRead (ea f a s) s with prodh := t.prodh, prodl := t.prodl, pc := evenPc (s.pc + 2#21) }

/-- R163, R95: MOVFF resolves and reads its source, then resolves its destination and writes it; no flag, even when the
destination is STATUS. It stops for the addresses R163 forbids (D29). That it runs where a window takes it to PCL, TOSU, TOSH
or TOSL, and that PCL then reads as pc + 2, is the model's reading (log 22). -/
def Obligations.MoveFileToFile : Prop :=
  ∀ (fs fd : DAddr) (s : State),
    (MovffOk fs fd s →
        let s1 := (afterRead fs s).advance 4
        exec (.movff fs fd) s = .next (poke (target fd s1) (operand fs s) (bump fd s1))) ∧
      (fd ∈ [0xFF9#12, 0xFFD#12, 0xFFE#12, 0xFFF#12] → exec (.movff fs fd) s = .fault .movffForbiddenDestination) ∧
      (fd ∉ [0xFF9#12, 0xFFD#12, 0xFFE#12, 0xFFF#12] → fs = 0xFF9#12 → exec (.movff fs fd) s = .fault .movffPclSource)

/-- R228, R133: LFSR loads one pointer and nothing else but the pc; with `ff` = 3, which no word decodes to, it stops
(D35). -/
def Obligations.LoadPointer : Prop :=
  ∀ (k : BitVec 12) (s : State),
    exec (.lfsr 0#2 k) s = .next { s with fsr0 := k, pc := evenPc (s.pc + 4#21) } ∧
      exec (.lfsr 1#2 k) s = .next { s with fsr1 := k, pc := evenPc (s.pc + 4#21) } ∧
      exec (.lfsr 2#2 k) s = .next { s with fsr2 := k, pc := evenPc (s.pc + 4#21) } ∧
      exec (.lfsr 3#2 k) s = .fault .illegalInstruction

/-! ### Table instructions -/

/-- R166 to R169, R101: the table reads fill TABLAT from the byte TBLPTR names and move the pointer as their suffix says,
modulo 2^22 (D19); a pointer outside program memory stops them. -/
def Obligations.TableReads : Prop :=
  ∀ s : State,
    let after (p : BitVec 22) (read : Nat) : State :=
      { s with tablat := s.progByte read, tblptr := p, pc := evenPc (s.pc + 2#21) }
    let up := BitVec.ofNat 22 (s.tblptr.toNat + 1)
    let down := BitVec.ofNat 22 (s.tblptr.toNat + (2 ^ 22 - 1))
    (s.tblptr.toNat < Config.progMemBytes →
        exec .tblrd s = .next (after s.tblptr s.tblptr.toNat) ∧
          exec .tblrdPostInc s = .next (after up s.tblptr.toNat) ∧
          exec .tblrdPostDec s = .next (after down s.tblptr.toNat)) ∧
      (up.toNat < Config.progMemBytes → exec .tblrdPreInc s = .next (after up up.toNat)) ∧
      (Config.progMemBytes ≤ s.tblptr.toNat →
        exec .tblrd s = .fault .tableReadOutside ∧ exec .tblrdPostInc s = .fault .tableReadOutside ∧
          exec .tblrdPostDec s = .fault .tableReadOutside) ∧
      (Config.progMemBytes ≤ up.toNat → exec .tblrdPreInc s = .fault .tableReadOutside)

/-- R170 to R173, R101: the table writes put TABLAT in the holding latch that the low three bits of TBLPTR select, leave the
other latches and program memory, and move the pointer as their suffix says (D19). -/
def Obligations.TableWrites : Prop :=
  ∀ s : State,
    let up := BitVec.ofNat 22 (s.tblptr.toNat + 1)
    let down := BitVec.ofNat 22 (s.tblptr.toNat + (2 ^ 22 - 1))
    let result (i : Instr) (p : BitVec 22) (at_ : BitVec 22) : Prop :=
      ∃ t, exec i s = .next t ∧ t = { s with hold := t.hold, tblptr := p, pc := evenPc (s.pc + 2#21) } ∧
        ∀ n : Fin 8, t.hold[n] = if n.val = at_.toNat % 8 then s.tablat else s.hold[n]
    result .tblwt s.tblptr s.tblptr ∧ result .tblwtPostInc up s.tblptr ∧ result .tblwtPostDec down s.tblptr ∧
      result .tblwtPreInc up up

/-! ### Control -/

/-- R260 to R267, R131: each conditional branch tests its flag and goes to pc + 2 + 2n or to pc + 2, modulo 2^21, bit 0
clear, and changes nothing else. The target arithmetic is decision D11. -/
def Obligations.ConditionalBranches : Prop :=
  ∀ (n : BitVec 8) (s : State),
    let goes (taken : Bool) : State :=
      { s with pc := evenPc (BitVec.ofInt 21 (s.pc.toNat + 2 + if taken then 2 * n.toInt else 0)) }
    exec (.bc n) s = .next (goes s.status.c) ∧ exec (.bnc n) s = .next (goes (!s.status.c)) ∧
      exec (.bn n) s = .next (goes s.status.n) ∧ exec (.bnn n) s = .next (goes (!s.status.n)) ∧
      exec (.bov n) s = .next (goes s.status.ov) ∧ exec (.bnov n) s = .next (goes (!s.status.ov)) ∧
      exec (.bz n) s = .next (goes s.status.z) ∧ exec (.bnz n) s = .next (goes (!s.status.z))

/-- R268, R271, R131, R132: BRA and GOTO change the pc alone (D9, D11); PCLATH and PCLATU are not touched. -/
def Obligations.Jumps : Prop :=
  ∀ (n : BitVec 11) (k : BitVec 20) (s : State),
    exec (.bra n) s = .next { s with pc := evenPc (BitVec.ofInt 21 (s.pc.toNat + 2 + 2 * n.toInt)) } ∧
      exec (.goto k) s = .next { s with pc := BitVec.ofNat 21 (2 * k.toNat) }

/-- R269, R275, R276, R43, R47: CALL, RCALL and PUSH push the address of the next instruction when the stack has room and
stop when it has not (D14); CALL 1 copies W, STATUS and BSR to the fast register stack (D15); every other entry and all else
stays. -/
def Obligations.CallsAndPush : Prop :=
  ∀ (k : BitVec 20) (n : BitVec 11) (fast : Bool) (s : State),
    let calls (i : Instr) (ret dest : PAddr) (fs : FastStack) : Prop :=
      (s.sp.toNat < 30 →
          ∃ t, exec i s = .next t ∧ t.sp.toNat = s.sp.toNat + 1 ∧ t.stackEntry t.sp = ret ∧
            (∀ j, j ≠ 0#5 → j ≠ t.sp → t.stackEntry j = s.stackEntry j) ∧
            t = { s with pc := dest, fast := fs, sp := t.sp, stack := t.stack }) ∧
        (30 ≤ s.sp.toNat → exec i s = .fault .stackOverflow)
    calls (.call k fast) (s.pc + 4#21) (BitVec.ofNat 21 (2 * k.toNat))
        (if fast then ⟨s.w, s.status, s.bsr⟩ else s.fast) ∧
      calls (.rcall n) (s.pc + 2#21) (evenPc (BitVec.ofInt 21 (s.pc.toNat + 2 + 2 * n.toInt))) s.fast ∧
      calls .push (s.pc + 2#21) (evenPc (s.pc + 2#21)) s.fast

/-- R279, R280, R274, R44, R47: RETURN and RETLW load the pc from the top entry with bit 0 cleared, POP drops it; RETURN 1
restores W, STATUS and BSR, RETLW writes W; with an empty stack they stop (D14). -/
def Obligations.ReturnsAndPop : Prop :=
  ∀ (k : Byte) (fast : Bool) (s : State),
    let back : State := { s with pc := evenPc (s.stackEntry s.sp), sp := s.sp - 1#5 }
    (s.sp ≠ 0#5 →
        exec (.ret fast) s =
            .next (if fast then { back with w := s.fast.ws, status := s.fast.statuss, bsr := s.fast.bsrs } else back) ∧
          exec (.retlw k) s = .next { back with w := k } ∧
          exec .pop s = .next { s with sp := s.sp - 1#5, pc := evenPc (s.pc + 2#21) }) ∧
      (s.sp = 0#5 →
        exec (.ret fast) s = .fault .stackUnderflow ∧ exec (.retlw k) s = .fault .stackUnderflow ∧
          exec .pop s = .fault .stackUnderflow)

/-- R278, R318: RETFIE returns as RETURN does, sets the enable bit of the level it leaves (INTCON bit 7 for a high one or for
none, bit 6 for a low one) and takes that level off (D21). -/
def Obligations.ReturnFromInterrupt : Prop :=
  ∀ (fast : Bool) (s : State),
    let intcon : Intcon := match s.isrLevel with
      | .low :: _ => { s.intcon with peie := true }
      | _ => { s.intcon with gie := true }
    let back : State :=
      { s with pc := evenPc (s.stackEntry s.sp), sp := s.sp - 1#5, intcon := intcon, isrLevel := s.isrLevel.tail }
    (s.sp ≠ 0#5 →
        exec (.retfie fast) s =
          .next (if fast then { back with w := s.fast.ws, status := s.fast.statuss, bsr := s.fast.bsrs } else back)) ∧
      (s.sp = 0#5 → exec (.retfie fast) s = .fault .stackUnderflow)

/-- R272 and R273, whole: both forms of NOP change the pc and nothing else, whatever the twelve ignored bits; on an even pc
that does not pass the end of its range it is 2 further on; their encodings and cycles; every word 1111 xxxx xxxx xxxx decodes
to the second form. -/
def Obligations.NoOperation : Prop :=
  ∀ (x : BitVec 12) (s : State),
    (∀ i ∈ [Instr.nop, .nopF x], ∃ t, exec i s = .next t ∧ t = { s with pc := t.pc } ∧
        (s.pc.getLsbD 0 = false → s.pc.toNat + 2 < 2 ^ 21 → t.pc.toNat = s.pc.toNat + 2) ∧ cycleClass i = .one) ∧
      encode .nop = [mkWord 0x00#8 0x00#8] ∧
      encode (.nopF x) = [mkWord (0b1111#4 ++ x.extractLsb' 8 4) (x.extractLsb' 0 8)] ∧
      ∀ (hasSubfwbDaw : Bool) (hi lo : Byte), hi.extractLsb' 4 4 = 0b1111#4 →
        decodeFirst hasSubfwbDaw hi lo = .one (.nopF (hi.extractLsb' 0 4 ++ lo))

/-- R270, R281, R37: CLRWDT and SLEEP clear the watchdog count and write TO and PD (1, 1 and 1, 0: decision D23); SLEEP puts
the core in standby at pc + 2. -/
def Obligations.ClearWatchdogAndSleep : Prop :=
  ∀ s : State,
    exec .clrwdt s =
        .next { s with wdt := 0, rcon := { s.rcon with to_ := true, pd := true }, pc := evenPc (s.pc + 2#21) } ∧
      exec .sleep s =
        .next { s with wdt := 0, rcon := { s.rcon with to_ := true, pd := false }, sleeping := true,
                       pc := evenPc (s.pc + 2#21) }

/-- R277, R351, R352: RESET gives every cell that R70's column "model" gives a value that value, and leaves the program, the
environment's moves and the cells R70 marks unchanged ("u") as they are (decision D22; keeping the "u" cells is log 6). -/
def Obligations.SoftwareReset : Prop :=
  ∀ s : State, ∃ t, exec .reset s = .next t ∧
    (t.pc = 0#21 ∧ t.sp = 0#5 ∧ t.stkful = false ∧ t.stkunf = false ∧ t.pclath = 0#8 ∧ t.pclatu = 0#5 ∧
      t.tblptr = 0#22 ∧ t.tablat = 0#8 ∧ t.bsr = 0#4 ∧ t.intcon.toByte &&& 0xFE#8 = 0#8 ∧ t.intcon2 = 0xF5#8 ∧
      t.intcon3 = 0xC0#8 ∧ t.pie1 = 0#8 ∧ t.pie2 = 0#8 ∧ t.pir1 = 0#8 ∧ t.pir2 = 0#8 ∧ t.ipr1 = 0xFF#8 ∧
      t.ipr2 = 0x1F#8 ∧ t.rcon.ipen = false ∧ t.isrLevel = [] ∧ t.sleeping = false) ∧
    (t.prog = s.prog ∧ t.env = s.env ∧ t.w = s.w ∧ t.status = s.status ∧ t.fsr0 = s.fsr0 ∧ t.fsr1 = s.fsr1 ∧
      t.fsr2 = s.fsr2 ∧ t.prodh = s.prodh ∧ t.prodl = s.prodl ∧ t.stack = s.stack ∧ t.fast = s.fast ∧ t.data = s.data)

/-! ### Flag arithmetic -/

/-- R32, R33: `add8` and `sub8` over the integers. C and DC are the carries out of bits 7 and 3 (for a subtraction: 1 exactly
when no borrow occurs there); Z and N describe the result; OV is exactly a signed sum outside -128 to 127, for a subtraction
exactly operands of different sign with a result whose sign is not the first operand's (the reading D4 adopts). -/
def Obligations.ArithmeticFlags : Prop :=
  ∀ (a b : Byte) (c : Bool),
    (let p := add8 a b c
     p.1.toNat = (a.toNat + b.toNat + c.toNat) % 256 ∧
      p.2 = { c := some (decide (a.toNat + b.toNat + c.toNat ≥ 256))
              dc := some (decide (a.toNat % 16 + b.toNat % 16 + c.toNat ≥ 16))
              z := some (decide (p.1.toNat = 0))
              ov := some (decide (a.toInt + b.toInt + c.toNat < -128 ∨ 127 < a.toInt + b.toInt + c.toNat))
              n := some (decide (p.1.toNat ≥ 128)) }) ∧
    (let p := sub8 a b c
     (p.1.toNat : Int) = ((a.toNat : Int) - b.toNat - c.toNat) % 256 ∧
      p.2 = { c := some (decide (a.toNat ≥ b.toNat + c.toNat))
              dc := some (decide (a.toNat % 16 ≥ b.toNat % 16 + c.toNat))
              z := some (decide (p.1.toNat = 0))
              ov := some (decide (a.getLsbD 7 ≠ b.getLsbD 7 ∧ p.1.getLsbD 7 ≠ a.getLsbD 7))
              n := some (p.1.getLsbD 7) })

/-! ### Operands -/

/-- R92, R93, R94, R84: the address of an `f` field. With a = 1 it is BSR's bank; with a = 0 it is 000h to 07Fh or F80h to
FFFh by the field (the split at 80h is decision D6), whatever BSR is; the register page is the same cells either way. -/
def Obligations.EffectiveAddress : Prop :=
  ∀ (f : Byte) (s : State),
    (ea f true s).toNat = s.bsr.toNat * 256 + f.toNat ∧
      (f.toNat < 0x80 → (ea f false s).toNat = f.toNat) ∧
      (0x80 ≤ f.toNat → (ea f false s).toNat = 0xF00 + f.toNat) ∧
      (0x80 ≤ f.toNat → s.bsr = 0xF#4 → ea f true s = ea f false s)

/-- R50, R95, R96, R97 (decision D16): what each of the five windows of a pointer resolves to and how it moves the pointer,
modulo 4096; an address that is no window resolves to itself; a pointer that lands on a window gives no target and still
moves; a stepping window on its own pointer's bytes stops. -/
def Obligations.IndirectWindows : Prop :=
  ∀ (n : FsrIndex) (s : State),
    let base := match n with
      | .f0 => 0xFEB#12
      | .f1 => 0xFE3#12
      | .f2 => 0xFDB#12
    let p := s.fsr n
    let up := BitVec.ofNat 12 (p.toNat + 1)
    let down := BitVec.ofNat 12 (p.toNat + 4095)
    let off := BitVec.ofInt 12 (p.toNat + s.w.toInt)
    let isWindow (x : DAddr) : Prop :=
      (0xFEB ≤ x.toNat ∧ x.toNat ≤ 0xFEF) ∨ (0xFE3 ≤ x.toNat ∧ x.toNat ≤ 0xFE7) ∨ (0xFDB ≤ x.toNat ∧ x.toNat ≤ 0xFDF)
    let resolves (A T : DAddr) (new : BitVec 12) : Prop :=
      bump A s = s.setFsr n new ∧ (isWindow T → target A s = none) ∧ (¬ isWindow T → target A s = some T)
    let stops (A T : DAddr) : Prop :=
      T = (fsrBytes n).1 ∨ T = (fsrBytes n).2 → resolve A s = .error .indirectOnOwnFSR
    resolves (base + 4#12) p p ∧ resolves (base + 3#12) p up ∧ resolves (base + 2#12) p down ∧
      resolves (base + 1#12) up up ∧ resolves base off p ∧
      stops (base + 3#12) p ∧ stops (base + 2#12) p ∧ stops (base + 1#12) up ∧
      ∀ A : DAddr, ¬ isWindow A → target A s = some A ∧ bump A s = s

/-- R90, R20 to R30, R40 to R42, R61, R62: what a data read shows at every core register, at RAM, and at an address with
neither (D25), and what it changes: reading PCL latches the upper bytes of pc + 2 (R26, D17), reading a peripheral uses up a
free value (D24, D32), and no other read changes anything. The layouts are decisions D5, D16, D17, D20, D23, D37. -/
def Obligations.DataReadMap : Prop :=
  ∀ s : State,
    let at_ (a : DAddr) : Byte := peek (some a) s
    (at_ 0xFE8#12 = s.w ∧ (at_ 0xFD8#12).toNat = 16 * s.status.n.toNat + 8 * s.status.ov.toNat + 4 * s.status.z.toNat +
        2 * s.status.dc.toNat + s.status.c.toNat ∧ (at_ 0xFE0#12).toNat = s.bsr.toNat) ∧
      ((at_ 0xFEA#12).toNat * 256 + (at_ 0xFE9#12).toNat = s.fsr0.toNat ∧
        (at_ 0xFE2#12).toNat * 256 + (at_ 0xFE1#12).toNat = s.fsr1.toNat ∧
        (at_ 0xFDA#12).toNat * 256 + (at_ 0xFD9#12).toNat = s.fsr2.toNat) ∧
      ((at_ 0xFF9#12).toNat = (s.pc.toNat + 2) % 256 ∧ at_ 0xFFA#12 = s.pclath ∧ (at_ 0xFFB#12).toNat = s.pclatu.toNat) ∧
      ((at_ 0xFFC#12).toNat = 128 * s.stkful.toNat + 64 * s.stkunf.toNat + s.sp.toNat ∧
        (at_ 0xFFF#12).toNat * 65536 + (at_ 0xFFE#12).toNat * 256 + (at_ 0xFFD#12).toNat = (s.stackEntry s.sp).toNat) ∧
      (at_ 0xFF3#12 = s.prodl ∧ at_ 0xFF4#12 = s.prodh ∧ at_ 0xFF5#12 = s.tablat ∧
        (at_ 0xFF8#12).toNat * 65536 + (at_ 0xFF7#12).toNat * 256 + (at_ 0xFF6#12).toNat = s.tblptr.toNat) ∧
      (at_ 0xFF2#12 = s.intcon.toByte ∧ at_ 0xFF1#12 = s.intcon2 ∧ at_ 0xFF0#12 = s.intcon3 ∧
        at_ 0xFD0#12 = s.rcon.toByte ∧ at_ 0xF9E#12 = s.pir1 ∧ at_ 0xF9D#12 = s.pie1 ∧ at_ 0xF9F#12 = s.ipr1 ∧
        at_ 0xFA1#12 = s.pir2 ∧ at_ 0xFA0#12 = s.pie2 ∧ at_ 0xFA2#12 = s.ipr2) ∧
      (∀ a : DAddr, a.toNat ≤ Config.gprTop → at_ a = s.ramAt a) ∧
      (∀ a : DAddr, Config.gprTop < a.toNat → sfrAt a = none → at_ a = 0#8) ∧
      readEffect (some 0xFF9#12) s =
        { s with pclath := BitVec.ofNat 8 ((s.pc + 2#21).toNat / 256),
                 pclatu := BitVec.ofNat 5 ((s.pc + 2#21).toNat / 65536) } ∧
      (∀ (a : DAddr) (p : Periph), cellAt a = .sfr (.periph p) →
        readEffect (some a) s = { s with draws := s.draws + 1 }) ∧
      ∀ T : Target, T ≠ some 0xFF9#12 → (∀ a p, T = some a → cellAt a ≠ .sfr (.periph p)) → readEffect T s = s

/-- R91, R26, R41, R42, R62, R83: what a data write does at every core register and at an address with none: unimplemented
and read-only bits are ignored (D25, D37; RCIF and TXIF by R62), a write to PCL is a computed jump (D17). That bit 7 of PIR1, PIE1 and IPR1 (PSP) exists is
the model's choice of `HAS_PORTD_E` (log 12), and so is where RAM ends. -/
def Obligations.DataWriteMap : Prop :=
  ∀ (v : Byte) (s : State),
    let put (a : DAddr) : State := poke (some a) v s
    (put 0xFE8#12 = { s with w := v } ∧
        put 0xFD8#12 =
          { s with status := ⟨v.getLsbD 4, v.getLsbD 3, v.getLsbD 2, v.getLsbD 1, v.getLsbD 0⟩ } ∧
        put 0xFE0#12 = { s with bsr := BitVec.ofNat 4 v.toNat }) ∧
      ((put 0xFE9#12 = { s with fsr0 := BitVec.ofNat 12 (s.fsr0.toNat / 256 * 256 + v.toNat) } ∧
        put 0xFEA#12 = { s with fsr0 := BitVec.ofNat 12 (v.toNat * 256 + s.fsr0.toNat % 256) }) ∧
        (put 0xFE1#12 = { s with fsr1 := BitVec.ofNat 12 (s.fsr1.toNat / 256 * 256 + v.toNat) } ∧
        put 0xFE2#12 = { s with fsr1 := BitVec.ofNat 12 (v.toNat * 256 + s.fsr1.toNat % 256) }) ∧
        (put 0xFD9#12 = { s with fsr2 := BitVec.ofNat 12 (s.fsr2.toNat / 256 * 256 + v.toNat) } ∧
        put 0xFDA#12 = { s with fsr2 := BitVec.ofNat 12 (v.toNat * 256 + s.fsr2.toNat % 256) })) ∧
      (put 0xFF9#12 =
          { s with pc := BitVec.ofNat 21 (s.pclatu.toNat * 65536 + s.pclath.toNat * 256 + v.toNat / 2 * 2) } ∧
        put 0xFFA#12 = { s with pclath := v } ∧ put 0xFFB#12 = { s with pclatu := BitVec.ofNat 5 v.toNat }) ∧
      (put 0xFFC#12 = { s with sp := BitVec.ofNat 5 v.toNat } ∧
        (s.sp ≠ 0#5 →
          (put 0xFFD#12).stackEntry s.sp =
              BitVec.ofNat 21 ((s.stackEntry s.sp).toNat / 256 * 256 + v.toNat) ∧
            (put 0xFFE#12).stackEntry s.sp =
              BitVec.ofNat 21 ((s.stackEntry s.sp).toNat / 65536 * 65536 + v.toNat * 256 +
                (s.stackEntry s.sp).toNat % 256) ∧
            (put 0xFFF#12).stackEntry s.sp =
              BitVec.ofNat 21 (v.toNat * 65536 + (s.stackEntry s.sp).toNat % 65536))) ∧
      (put 0xFF3#12 = { s with prodl := v } ∧ put 0xFF4#12 = { s with prodh := v } ∧ put 0xFF5#12 = { s with tablat := v } ∧
        put 0xFF6#12 = { s with tblptr := BitVec.ofNat 22 (s.tblptr.toNat / 256 * 256 + v.toNat) } ∧
        put 0xFF7#12 =
          { s with tblptr := BitVec.ofNat 22 (s.tblptr.toNat / 65536 * 65536 + v.toNat * 256 + s.tblptr.toNat % 256) } ∧
        put 0xFF8#12 = { s with tblptr := BitVec.ofNat 22 (v.toNat * 65536 + s.tblptr.toNat % 65536) }) ∧
      ((put 0xFF2#12).intcon.toByte = v ∧ put 0xFF2#12 = { s with intcon := (put 0xFF2#12).intcon } ∧
        put 0xFF1#12 = { s with intcon2 := v &&& 0xF5#8 } ∧ put 0xFF0#12 = { s with intcon3 := v &&& 0xDB#8 } ∧
        (put 0xFD0#12).rcon.toByte = v &&& 0x9F#8 ∧ put 0xFD0#12 = { s with rcon := (put 0xFD0#12).rcon } ∧
        put 0xF9E#12 = { s with pir1 := (s.pir1 &&& 0x30#8) ||| (v &&& 0xCF#8) } ∧ put 0xF9D#12 = { s with pie1 := v } ∧
        put 0xF9F#12 = { s with ipr1 := v } ∧ put 0xFA1#12 = { s with pir2 := v &&& 0x1F#8 } ∧
        put 0xFA0#12 = { s with pie2 := v &&& 0x1F#8 } ∧ put 0xFA2#12 = { s with ipr2 := v &&& 0x1F#8 }) ∧
      ∀ a : DAddr, Config.gprTop < a.toNat → sfrAt a = none → put a = s

/-- R83, R104 (a): a byte of general-purpose RAM reads as the last byte written to it, and every other byte as before. -/
def Obligations.RamReadAfterWrite : Prop :=
  ∀ (a : DAddr) (v : Byte) (s : State), Memory.wf Config.dataFill s.data → a.toNat ≤ Config.gprTop →
    peek (some a) (poke (some a) v s) = v ∧
      (∀ b : DAddr, b ≠ a → b.toNat ≤ Config.gprTop → peek (some b) (poke (some a) v s) = peek (some b) s) ∧
      poke (some a) v s = { s with data := (poke (some a) v s).data }

/-- R31, R367 (decision D5): with STATUS as the destination, an instruction that affects a flag stores no data and only the
flags R35 lists for it can change; MOVWF, SETF, BSF and BCF, which affect none, store bits 4:0 as data. -/
def Obligations.StatusAsDestination : Prop :=
  ∀ (f : Byte) (b : BitVec 3) (a : Bool) (s : State), target (ea f a s) s = some 0xFD8#12 → Resolvable (ea f a s) s →
    (∀ i ∈ aluForms f true a ++ modifyForms f b a ++ storeForms f a, ¬ listsNoFlag i →
        ∃ t, exec i s = .next t ∧ FlagsKept i s t) ∧
      ∃ t1 t2 t3 t4, exec (.movwf f a) s = .next t1 ∧ t1.status.toByte = s.w &&& 0x1F#8 ∧
        exec (.setf f a) s = .next t2 ∧ t2.status.toByte = 0x1F#8 ∧
        exec (.bsf f b a) s = .next t3 ∧ t3.status.toByte = (s.status.toByte ||| bitMask b) &&& 0x1F#8 ∧
        exec (.bcf f b a) s = .next t4 ∧ t4.status.toByte = s.status.toByte &&& ~~~bitMask b

/-- R26, R368 (decision D17): ADDWF PCL,1,0 is the computed jump inside the block of pc + 2: the read latches the upper pc
bytes and the write loads them with the sum, bit 0 cleared and no carry into them. -/
def Obligations.ComputedJump : Prop :=
  ∀ s : State, ∃ t, exec (.addwf 0xF9#8 true false) s = .next t ∧
    t.pc.toNat = (s.pc + 2#21).toNat / 256 * 256 + (s.w.toNat + (s.pc + 2#21).toNat % 256) % 256 / 2 * 2 ∧
    t.pclatu.toNat * 256 + t.pclath.toNat = (s.pc + 2#21).toNat / 256 ∧
    t = { s with pc := t.pc, pclath := t.pclath, pclatu := t.pclatu, status := t.status }

/-! ### Frames -/

/-- The forms that store to `f` or nowhere: what a compare, a test, a multiply or a `d` = 0 form leaves unchanged. Every byte
of memory reads as before; of the registers only W and the flags a `d` = 0 form names, PRODH:PRODL for MULWF, the pointer of
the addressing mode, and the PCL latches when PCL is read. -/
def Obligations.ReadingFormsFrame : Prop :=
  ∀ (f : Byte) (b : BitVec 3) (a : Bool) (s t : State),
    (∀ i ∈ aluForms f false a, exec i s = .next t →
        ReadFrame (ea f a s) s t ∧ t.prodh = s.prodh ∧ t.prodl = s.prodl ∧ FlagsKept i s t) ∧
      (∀ i ∈ testForms f b a, exec i s = .next t →
        ReadFrame (ea f a s) s t ∧ t.prodh = s.prodh ∧ t.prodl = s.prodl ∧ t.w = s.w ∧ t.status = s.status) ∧
      (exec (.mulwf f a) s = .next t → ReadFrame (ea f a s) s t ∧ t.w = s.w ∧ t.status = s.status)

/-- The forms that store to `f`: every byte of memory outside the resolved target reads as before, and so does every register
but the one at the target, the pointer of the addressing mode, the pc and the flags the form lists (any flag, for a form that
lists none and has STATUS as its target). -/
def Obligations.StoringFormsFrame : Prop :=
  ∀ (f : Byte) (b : BitVec 3) (a : Bool) (s t : State), ∀ i ∈ aluForms f true a ++ modifyForms f b a ++ storeForms f a,
    exec i s = .next t → StoreFrame (ea f a s) s t ∧
      (target (ea f a s) s ≠ some 0xFD8#12 ∨ ¬ listsNoFlag i → FlagsKept i s t)

/-- MOVFF's frame: with the state after the source has been read, every byte of memory outside the resolved destination
reads as before, and every register but the one at the destination and those the two addressing modes move. That it runs
where a window takes it to PCL, TOSU, TOSH or TOSL is the model's reading (log 22). -/
def Obligations.MovffFrame : Prop :=
  ∀ (fs fd : DAddr) (s t : State), exec (.movff fs fd) s = .next t →
    StoreFrame fd ((afterRead fs s).advance 4) t ∧
      (target fd ((afterRead fs s).advance 4) ≠ some 0xFD8#12 → t.status = s.status) ∧
      (target fd ((afterRead fs s).advance 4) ≠ some 0xFF9#12 → t.pc = evenPc (s.pc + 4#21)) ∧
      ∀ b, target fd ((afterRead fs s).advance 4) ≠ some b → t.ramAt b = s.ramAt b

/-! ### Faults -/

/-- R97 (b) D16, R42 D37, R107 D19: when a file operand, or an operand of MOVFF, stops the model: a stepping window on its own
pointer's bytes, the top of an empty stack, a write to EECON2. Of MOVFF's operands the source counts first, then the destination
in the state after the source is read; which fault is reported where several apply is log 24, and that the forbidden addresses
are those its words name is log 22. -/
def Obligations.FileOperandFaults : Prop :=
  (∀ (f : Byte) (b : BitVec 3) (d a : Bool) (s : State),
    let A := ea f a s
    let reading := aluForms f d a ++ modifyForms f b a ++ testForms f b a ++ [.mulwf f a]
    let writing := aluForms f true a ++ modifyForms f b a ++ storeForms f a
    (¬ Resolvable A s → ∀ i ∈ reading ++ storeForms f a, exec i s = .fault .indirectOnOwnFSR) ∧
      (Resolvable A s → target A s ∈ tosTargets → s.sp = 0#5 →
        ∀ i ∈ reading ++ storeForms f a, exec i s = .fault .stackEmptyAccess) ∧
      (Resolvable A s → target A s = some 0xFA7#12 → ∀ i ∈ writing, exec i s = .fault .selfProgramming)) ∧
  ∀ (fs fd : DAddr) (s : State), fd ∉ [0xFF9#12, 0xFFD#12, 0xFFE#12, 0xFFF#12] → fs ≠ 0xFF9#12 →
    let s1 := (afterRead fs s).advance 4
    (¬ Resolvable fs s → exec (.movff fs fd) s = .fault .indirectOnOwnFSR) ∧
      (Resolvable fs s → target fs s ∈ tosTargets → s.sp = 0#5 → exec (.movff fs fd) s = .fault .stackEmptyAccess) ∧
      (Readable fs s →
        (¬ Resolvable fd s1 → exec (.movff fs fd) s = .fault .indirectOnOwnFSR) ∧
          (Resolvable fd s1 → target fd s1 ∈ tosTargets → s.sp = 0#5 →
            exec (.movff fs fd) s = .fault .stackEmptyAccess) ∧
          (Resolvable fd s1 → target fd s1 = some 0xFA7#12 → exec (.movff fs fd) s = .fault .selfProgramming))

/-- R311: no instruction is refused, and an instruction that stops with a fault is one its row names, in a state its row
names. This is the only-if: that each fault is raised there is stated in CallsAndPush, ReturnsAndPop, ReturnFromInterrupt,
TableReads, MoveFileToFile, LoadPointer and FileOperandFaults. That R311's UnwrittenRead never occurs is the model's choice
(log 1 and log 2); that MOVFF's forbidden operands are the addresses its words name is log 22. -/
def Obligations.FaultCauses : Prop :=
  (∀ (i : Instr) (s : State) (r : Refusal), exec i s ≠ .refused r) ∧
    ∀ (i : Instr) (s : State) (e : Fault), exec i s = .fault e →
      match e with
      | .stackOverflow => 30 ≤ s.sp.toNat ∧ ((∃ k b, i = .call k b) ∨ (∃ n, i = .rcall n) ∨ i = .push)
      | .stackUnderflow => s.sp = 0#5 ∧ ((∃ b, i = .ret b) ∨ (∃ k, i = .retlw k) ∨ (∃ b, i = .retfie b) ∨ i = .pop)
      | .stackEmptyAccess =>
        s.sp = 0#5 ∧
          ((∃ f a, fileOperand i = some (f, a) ∧ target (ea f a s) s ∈ tosTargets) ∨
            ∃ fs fd, i = .movff fs fd ∧
              (target fs s ∈ tosTargets ∨ target fd ((afterRead fs s).advance 4) ∈ tosTargets))
      | .indirectOnOwnFSR =>
        (∃ f a, fileOperand i = some (f, a) ∧ ¬ Resolvable (ea f a s) s) ∨
          ∃ fs fd, i = .movff fs fd ∧ (¬ Resolvable fs s ∨ ¬ Resolvable fd ((afterRead fs s).advance 4))
      | .tableReadOutside =>
        (i ∈ [.tblrd, .tblrdPostInc, .tblrdPostDec] ∧ Config.progMemBytes ≤ s.tblptr.toNat) ∨
          (i = .tblrdPreInc ∧ Config.progMemBytes ≤ (s.tblptr.toNat + 1) % 2 ^ 22)
      | .selfProgramming => writtenAddress i s = some 0xFA7#12
      | .movffForbiddenDestination => ∃ fs fd, i = .movff fs fd ∧ fd ∈ [0xFF9#12, 0xFFD#12, 0xFFE#12, 0xFFF#12]
      | .movffPclSource => ∃ fd, i = .movff 0xFF9#12 fd
      | .illegalInstruction => ∃ k, i = .lfsr 3#2 k
      | .fetchOutsideProgram | .malformedSecondWord => False

/-! ### Whole-machine rules -/

/-- R35, R31: a flag an instruction does not list changes only as data: when the instruction's destination is STATUS and it
lists no flag, or by RETURN 1 and RETFIE 1 from the fast register stack. RESET, which lists all, is left out. -/
def Obligations.FlagsChangeOnlyAsListed : Prop :=
  ∀ (i : Instr) (s t : State), exec i s = .next t → i ≠ .ret true → i ≠ .retfie true → i ≠ .reset →
    (writtenAddress i s = some 0xFD8#12 → ¬ listsNoFlag i) → FlagsKept i s t

/-- R25: after an instruction that neither transfers control nor skips nor writes PCL the pc is at the next word; after a
skip instruction it is at the next word or the one after; in every case it is even (R27, decision D7). -/
def Obligations.PcAdvance : Prop :=
  ∀ (i : Instr) (s t : State), exec i s = .next t →
    t.pc.getLsbD 0 = false ∧
      (transfers i = false → writtenAddress i s ≠ some 0xFF9#12 →
        (cycleClass i ≠ .skip → t.pc = evenPc (s.pc + BitVec.ofNat 21 i.bytes)) ∧
          (cycleClass i = .skip → t.pc = evenPc (s.pc + 2#21) ∨ t.pc = evenPc (s.pc + 4#21)))

/-- R107 (decision D19): no step changes program memory, whatever instruction runs, interrupt is taken or reset happens. -/
def Obligations.ProgramMemoryImmutable : Prop :=
  ∀ s t : State, step s = .next t → t.prog = s.prog

/-- 60_exceptions.md, Interrupts (D20): while INTCON bit 7 is clear no interrupt is taken, and only RETFIE and a data write to
INTCON set it. The last clause says so of a whole step, with the environment's move, a reset, a watchdog time-out and a wake-up
in it: the bit stays clear, no interrupt is taken, and no level enters service. -/
def Obligations.GlobalEnableStaysClear : Prop :=
  (∀ s : State, s.intcon.gie = false → pendingInterrupt s = none) ∧
    (∀ (i : Instr) (s t : State), exec i s = .next t → s.intcon.gie = false → (∀ b, i ≠ .retfie b) →
      writtenAddress i s ≠ some 0xFF2#12 → t.intcon.gie = false) ∧
    ∀ s t : State, step s = .next t → s.intcon.gie = false →
      (∀ s1 i rest, boundary s = .run s1 → s1.wakeIfRequested.sleeping = false →
        decode (fetchBytes s1.wakeIfRequested) = .ok i rest →
          (∀ b, i ≠ .retfie b) ∧ writtenAddress i s1.wakeIfRequested ≠ some 0xFF2#12) →
      t.intcon.gie = false ∧ (t.isrLevel = s.isrLevel ∨ t.isrLevel = []) ∧
        ∀ s1, boundary s = .run s1 → pendingInterrupt s1.wakeIfRequested = none

/-! ### Interrupts -/

/-- R312, R313, R314 (decision D20), over the register bits a data read shows: when the high and when the low interrupt is
taken, with and without priorities, high before low. -/
def Obligations.InterruptConditions : Prop :=
  ∀ s : State,
    let gie := regBit (0xFF2#12, 7) s = true
    let peie := regBit (0xFF2#12, 6) s = true
    let ipen := regBit (0xFD0#12, 7) s = true
    let high := (¬ ipen ∧ ((∃ r ∈ coreRows, r.requests s) ∨ (peie ∧ ∃ r ∈ periphRows, r.requests s))) ∨
      (ipen ∧ ∃ r ∈ coreRows ++ periphRows, r.requests s ∧ r.high s)
    let low := ipen ∧ ∃ r ∈ coreRows ++ periphRows, r.requests s ∧ ¬ r.high s
    (pendingInterrupt s = some .high ↔ gie ∧ high) ∧
      (pendingInterrupt s = some .low ↔ gie ∧ peie ∧ low ∧ ¬ (gie ∧ high))

/-- R316, R317 (decision D20): a pending interrupt is taken instead of a fetch: the pc is pushed, W, STATUS and BSR go to the
fast register stack, the level's enable bit alone is cleared, the level is in service, the pc is at 000008h or 000018h;
nothing else changes. Without room on the stack it stops (D14). -/
def Obligations.InterruptEntry : Prop :=
  ∀ (s s1 : State) (lvl : IrqLevel), boundary s = .run s1 → pendingInterrupt s1 = some lvl →
    (s1.sp.toNat < 30 →
        ∃ t, step s = .next t ∧ t.sp.toNat = s1.sp.toNat + 1 ∧ t.stackEntry t.sp = s1.pc ∧
          (∀ j, j ≠ 0#5 → j ≠ t.sp → t.stackEntry j = s1.stackEntry j) ∧
          t = { s1 with
                sp := t.sp
                stack := t.stack
                fast := ⟨s1.w, s1.status, s1.bsr⟩
                intcon := (match lvl with
                  | .high => { s1.intcon with gie := false }
                  | .low => { s1.intcon with peie := false })
                isrLevel := lvl :: s1.isrLevel
                sleeping := false
                pc := (match lvl with
                  | .high => 0x000008#21
                  | .low => 0x000018#21) }) ∧
      (30 ≤ s1.sp.toNat → step s = .fault .stackOverflow)

/-- R316 with R318: RETFIE 1 right after the entry gives back the interrupted state: pc, W, STATUS, BSR, stack pointer, enable
bit and levels in service; only the fast register stack and the entry above the top have changed. -/
def Obligations.InterruptRoundTrip : Prop :=
  ∀ (lvl : IrqLevel) (s t : State), takeInterrupt lvl s = .ok t → s.pc.getLsbD 0 = false →
    s.intcon = s.intcon.setEnable lvl true →
      exec (.retfie true) t =
        .next { s with sleeping := false, fast := ⟨s.w, s.status, s.bsr⟩, stack := t.stack }

/-! ### Sleep, watchdog, reset -/

/-- R336 (decision D23; which sources wake is log 11): a sleeping core with no request stays as the environment left it; with
a request and no interrupt to take it wakes and goes on with the instruction after the SLEEP (an interrupt to take: see
InterruptEntry). -/
def Obligations.SleepAndWake : Prop :=
  ∀ s s1 : State, boundary s = .run s1 → s1.sleeping = true →
    ((∀ r ∈ coreRows ++ periphRows, ¬ r.requests s1) → step s = .next s1) ∧
      ((∃ r ∈ coreRows ++ periphRows, r.requests s1) → pendingInterrupt s1 = none →
        ∀ i rest, decode (fetchBytes s1) = .ok i rest → step s = exec i { s1 with sleeping := false })

/-- R312, R12: a move of the environment that is no reset and no watchdog time-out sets the interrupt flags it names and never
clears one, but for RCIF and TXIF, which follow their peripheral; it changes no other bit, and adds to the watchdog count
(decision D20). The model's choices in it: the queue of moves (log 10), the watchdog count as a number the moves add to
(log 18), and that PIR1 bit 7 (PSPIF) exists, by `HAS_PORTD_E` (log 12). -/
def Obligations.EnvironmentMoves : Prop :=
  ∀ (s : State) (m : EnvMove) (later : List EnvMove), s.env = m :: later → m.reset = none → m.wdtTimeout = false →
    ∃ t, boundary s = .run t ∧
      t = { s with
            env := later
            wdt := s.wdt + m.wdtTicks
            intcon := { s.intcon with
                        tmr0if := s.intcon.tmr0if || m.tmr0if
                        int0if := s.intcon.int0if || m.int0if
                        rbif := s.intcon.rbif || m.rbif }
            intcon3 := t.intcon3
            pir1 := t.pir1
            pir2 := t.pir2 } ∧
      (t.intcon3.getLsbD 0 = (s.intcon3.getLsbD 0 || m.int1if) ∧ t.intcon3.getLsbD 1 = (s.intcon3.getLsbD 1 || m.int2if) ∧
        ∀ n, 2 ≤ n → t.intcon3.getLsbD n = s.intcon3.getLsbD n) ∧
      (t.pir1.getLsbD 5 = m.rcif.getD (s.pir1.getLsbD 5) ∧ t.pir1.getLsbD 4 = m.txif.getD (s.pir1.getLsbD 4) ∧
        ∀ n, n ≠ 4 → n ≠ 5 → t.pir1.getLsbD n = (s.pir1.getLsbD n || m.pir1.getLsbD n)) ∧
      ∀ n, t.pir2.getLsbD n = (s.pir2.getLsbD n || (decide (n < 5) && m.pir2.getLsbD n))

/-- R320, R332, R350 (decisions D20, D22, D23; a reset is a step of its own: log 10): an environment reset comes before all
else; a watchdog time-out resets an awake core with TO = 0 and wakes a sleeping one with TO = 0 where it slept. The program
stays. That TO is 0 after the awake reset, where R70, R350 and R351 have a draw, is the model's reading of R37 and R332
(log 21); that a time-out has its effect is its choice of `WDT_ENABLED` (log 12). -/
def Obligations.EnvironmentResets : Prop :=
  ∀ (s : State) (m : EnvMove) (later : List EnvMove), s.env = m :: later →
    (∀ k, m.reset = some k →
        ∃ t, step s = .next t ∧ t.pc = 0#21 ∧ t.sp = 0#5 ∧ t.bsr = 0#4 ∧ t.intcon.gie = false ∧ t.rcon.ipen = false ∧
          t.isrLevel = [] ∧ t.sleeping = false ∧ t.prog = s.prog ∧ t.env = later) ∧
      (m.reset = none → m.wdtTimeout = true →
        (s.sleeping = false →
            ∃ t, step s = .next t ∧ t.pc = 0#21 ∧ t.sp = 0#5 ∧ t.rcon.to_ = false ∧ t.sleeping = false ∧
              t.prog = s.prog ∧ t.env = later) ∧
          (s.sleeping = true →
            ∃ t, boundary s = .run t ∧ t.sleeping = false ∧ t.pc = s.pc ∧ t.rcon = { s.rcon with to_ := false } ∧
              t.w = s.w ∧ t.sp = s.sp ∧ t.data = s.data ∧ t.prog = s.prog ∧ t.env = later))

/-- R70, R351: the reset state has every value the spec gives (decision D22). The cells R70 leaves unknown (log 1), RBIF and
RCON bits 4:0 (log 5) are not part of this statement. -/
def Obligations.ResetValues : Prop :=
  let s := State.reset
  s.pc = 0x000000#21 ∧ s.sp = 0#5 ∧ s.stkful = false ∧ s.stkunf = false ∧ s.pclath = 0#8 ∧ s.pclatu = 0#5 ∧
    s.tblptr = 0#22 ∧ s.tablat = 0#8 ∧ s.bsr = 0#4 ∧ s.intcon.toByte &&& 0xFE#8 = 0#8 ∧ s.intcon2 = 0xF5#8 ∧
    s.intcon3 = 0xC0#8 ∧ s.pie1 = 0#8 ∧ s.pie2 = 0#8 ∧ s.pir1 = 0#8 ∧ s.pir2 = 0#8 ∧ s.ipr1 = 0xFF#8 ∧ s.ipr2 = 0x1F#8 ∧
    s.rcon.ipen = false ∧ s.isrLevel = [] ∧ s.sleeping = false

/-! ### The invariant -/

/-- The reset state has the invariant. -/
def Obligations.ResetHasInvariant : Prop := State.reset.Inv

/-- Every step keeps the invariant, from every state that has it: both memories in canonical form and inside their space, the
pc even (R27), unimplemented register bits 0 (R62), STKFUL and STKUNF clear (R41), no program-memory write started (R363). -/
def Obligations.StepKeepsInvariant : Prop :=
  ∀ s t : State, s.Inv → step s = .next t → t.Inv
end

