-- ==== Sys2Proof/Laws/State.lean ====
section
/-! SUPPORT. For each named update of the state, what each field is after it. -/

namespace Sys2Proof.Machine

variable (s : State)

/-! ### jump -/

@[simp] theorem State.jump_pc (v : PAddr) : (s.jump v).pc = evenPc v := rfl
@[simp] theorem State.jump_pclath (v : PAddr) : (s.jump v).pclath = s.pclath := rfl
@[simp] theorem State.jump_pclatu (v : PAddr) : (s.jump v).pclatu = s.pclatu := rfl
@[simp] theorem State.jump_w (v : PAddr) : (s.jump v).w = s.w := rfl
@[simp] theorem State.jump_status (v : PAddr) : (s.jump v).status = s.status := rfl
@[simp] theorem State.jump_bsr (v : PAddr) : (s.jump v).bsr = s.bsr := rfl
@[simp] theorem State.jump_fsr0 (v : PAddr) : (s.jump v).fsr0 = s.fsr0 := rfl
@[simp] theorem State.jump_fsr1 (v : PAddr) : (s.jump v).fsr1 = s.fsr1 := rfl
@[simp] theorem State.jump_fsr2 (v : PAddr) : (s.jump v).fsr2 = s.fsr2 := rfl
@[simp] theorem State.jump_prodh (v : PAddr) : (s.jump v).prodh = s.prodh := rfl
@[simp] theorem State.jump_prodl (v : PAddr) : (s.jump v).prodl = s.prodl := rfl
@[simp] theorem State.jump_tblptr (v : PAddr) : (s.jump v).tblptr = s.tblptr := rfl
@[simp] theorem State.jump_tablat (v : PAddr) : (s.jump v).tablat = s.tablat := rfl
@[simp] theorem State.jump_sp (v : PAddr) : (s.jump v).sp = s.sp := rfl
@[simp] theorem State.jump_stkful (v : PAddr) : (s.jump v).stkful = s.stkful := rfl
@[simp] theorem State.jump_stkunf (v : PAddr) : (s.jump v).stkunf = s.stkunf := rfl
@[simp] theorem State.jump_stack (v : PAddr) : (s.jump v).stack = s.stack := rfl
@[simp] theorem State.jump_fast (v : PAddr) : (s.jump v).fast = s.fast := rfl
@[simp] theorem State.jump_hold (v : PAddr) : (s.jump v).hold = s.hold := rfl
@[simp] theorem State.jump_intcon (v : PAddr) : (s.jump v).intcon = s.intcon := rfl
@[simp] theorem State.jump_intcon2 (v : PAddr) : (s.jump v).intcon2 = s.intcon2 := rfl
@[simp] theorem State.jump_intcon3 (v : PAddr) : (s.jump v).intcon3 = s.intcon3 := rfl
@[simp] theorem State.jump_rcon (v : PAddr) : (s.jump v).rcon = s.rcon := rfl
@[simp] theorem State.jump_pir1 (v : PAddr) : (s.jump v).pir1 = s.pir1 := rfl
@[simp] theorem State.jump_pie1 (v : PAddr) : (s.jump v).pie1 = s.pie1 := rfl
@[simp] theorem State.jump_ipr1 (v : PAddr) : (s.jump v).ipr1 = s.ipr1 := rfl
@[simp] theorem State.jump_pir2 (v : PAddr) : (s.jump v).pir2 = s.pir2 := rfl
@[simp] theorem State.jump_pie2 (v : PAddr) : (s.jump v).pie2 = s.pie2 := rfl
@[simp] theorem State.jump_ipr2 (v : PAddr) : (s.jump v).ipr2 = s.ipr2 := rfl
@[simp] theorem State.jump_isrLevel (v : PAddr) : (s.jump v).isrLevel = s.isrLevel := rfl
@[simp] theorem State.jump_sleeping (v : PAddr) : (s.jump v).sleeping = s.sleeping := rfl
@[simp] theorem State.jump_wdt (v : PAddr) : (s.jump v).wdt = s.wdt := rfl
@[simp] theorem State.jump_flashWriteBusy (v : PAddr) : (s.jump v).flashWriteBusy = s.flashWriteBusy := rfl
@[simp] theorem State.jump_data (v : PAddr) : (s.jump v).data = s.data := rfl
@[simp] theorem State.jump_prog (v : PAddr) : (s.jump v).prog = s.prog := rfl
@[simp] theorem State.jump_draws (v : PAddr) : (s.jump v).draws = s.draws := rfl
@[simp] theorem State.jump_env (v : PAddr) : (s.jump v).env = s.env := rfl

/-! ### advance -/

@[simp] theorem State.advance_pc (n : Nat) : (s.advance n).pc = evenPc (s.pc + BitVec.ofNat 21 n) := rfl
@[simp] theorem State.advance_pclath (n : Nat) : (s.advance n).pclath = s.pclath := rfl
@[simp] theorem State.advance_pclatu (n : Nat) : (s.advance n).pclatu = s.pclatu := rfl
@[simp] theorem State.advance_w (n : Nat) : (s.advance n).w = s.w := rfl
@[simp] theorem State.advance_status (n : Nat) : (s.advance n).status = s.status := rfl
@[simp] theorem State.advance_bsr (n : Nat) : (s.advance n).bsr = s.bsr := rfl
@[simp] theorem State.advance_fsr0 (n : Nat) : (s.advance n).fsr0 = s.fsr0 := rfl
@[simp] theorem State.advance_fsr1 (n : Nat) : (s.advance n).fsr1 = s.fsr1 := rfl
@[simp] theorem State.advance_fsr2 (n : Nat) : (s.advance n).fsr2 = s.fsr2 := rfl
@[simp] theorem State.advance_prodh (n : Nat) : (s.advance n).prodh = s.prodh := rfl
@[simp] theorem State.advance_prodl (n : Nat) : (s.advance n).prodl = s.prodl := rfl
@[simp] theorem State.advance_tblptr (n : Nat) : (s.advance n).tblptr = s.tblptr := rfl
@[simp] theorem State.advance_tablat (n : Nat) : (s.advance n).tablat = s.tablat := rfl
@[simp] theorem State.advance_sp (n : Nat) : (s.advance n).sp = s.sp := rfl
@[simp] theorem State.advance_stkful (n : Nat) : (s.advance n).stkful = s.stkful := rfl
@[simp] theorem State.advance_stkunf (n : Nat) : (s.advance n).stkunf = s.stkunf := rfl
@[simp] theorem State.advance_stack (n : Nat) : (s.advance n).stack = s.stack := rfl
@[simp] theorem State.advance_fast (n : Nat) : (s.advance n).fast = s.fast := rfl
@[simp] theorem State.advance_hold (n : Nat) : (s.advance n).hold = s.hold := rfl
@[simp] theorem State.advance_intcon (n : Nat) : (s.advance n).intcon = s.intcon := rfl
@[simp] theorem State.advance_intcon2 (n : Nat) : (s.advance n).intcon2 = s.intcon2 := rfl
@[simp] theorem State.advance_intcon3 (n : Nat) : (s.advance n).intcon3 = s.intcon3 := rfl
@[simp] theorem State.advance_rcon (n : Nat) : (s.advance n).rcon = s.rcon := rfl
@[simp] theorem State.advance_pir1 (n : Nat) : (s.advance n).pir1 = s.pir1 := rfl
@[simp] theorem State.advance_pie1 (n : Nat) : (s.advance n).pie1 = s.pie1 := rfl
@[simp] theorem State.advance_ipr1 (n : Nat) : (s.advance n).ipr1 = s.ipr1 := rfl
@[simp] theorem State.advance_pir2 (n : Nat) : (s.advance n).pir2 = s.pir2 := rfl
@[simp] theorem State.advance_pie2 (n : Nat) : (s.advance n).pie2 = s.pie2 := rfl
@[simp] theorem State.advance_ipr2 (n : Nat) : (s.advance n).ipr2 = s.ipr2 := rfl
@[simp] theorem State.advance_isrLevel (n : Nat) : (s.advance n).isrLevel = s.isrLevel := rfl
@[simp] theorem State.advance_sleeping (n : Nat) : (s.advance n).sleeping = s.sleeping := rfl
@[simp] theorem State.advance_wdt (n : Nat) : (s.advance n).wdt = s.wdt := rfl
@[simp] theorem State.advance_flashWriteBusy (n : Nat) : (s.advance n).flashWriteBusy = s.flashWriteBusy := rfl
@[simp] theorem State.advance_data (n : Nat) : (s.advance n).data = s.data := rfl
@[simp] theorem State.advance_prog (n : Nat) : (s.advance n).prog = s.prog := rfl
@[simp] theorem State.advance_draws (n : Nat) : (s.advance n).draws = s.draws := rfl
@[simp] theorem State.advance_env (n : Nat) : (s.advance n).env = s.env := rfl

/-! ### setRam -/

@[simp] theorem State.setRam_pc (a : DAddr) (v : Byte) : (s.setRam a v).pc = s.pc := rfl
@[simp] theorem State.setRam_pclath (a : DAddr) (v : Byte) : (s.setRam a v).pclath = s.pclath := rfl
@[simp] theorem State.setRam_pclatu (a : DAddr) (v : Byte) : (s.setRam a v).pclatu = s.pclatu := rfl
@[simp] theorem State.setRam_w (a : DAddr) (v : Byte) : (s.setRam a v).w = s.w := rfl
@[simp] theorem State.setRam_status (a : DAddr) (v : Byte) : (s.setRam a v).status = s.status := rfl
@[simp] theorem State.setRam_bsr (a : DAddr) (v : Byte) : (s.setRam a v).bsr = s.bsr := rfl
@[simp] theorem State.setRam_fsr0 (a : DAddr) (v : Byte) : (s.setRam a v).fsr0 = s.fsr0 := rfl
@[simp] theorem State.setRam_fsr1 (a : DAddr) (v : Byte) : (s.setRam a v).fsr1 = s.fsr1 := rfl
@[simp] theorem State.setRam_fsr2 (a : DAddr) (v : Byte) : (s.setRam a v).fsr2 = s.fsr2 := rfl
@[simp] theorem State.setRam_prodh (a : DAddr) (v : Byte) : (s.setRam a v).prodh = s.prodh := rfl
@[simp] theorem State.setRam_prodl (a : DAddr) (v : Byte) : (s.setRam a v).prodl = s.prodl := rfl
@[simp] theorem State.setRam_tblptr (a : DAddr) (v : Byte) : (s.setRam a v).tblptr = s.tblptr := rfl
@[simp] theorem State.setRam_tablat (a : DAddr) (v : Byte) : (s.setRam a v).tablat = s.tablat := rfl
@[simp] theorem State.setRam_sp (a : DAddr) (v : Byte) : (s.setRam a v).sp = s.sp := rfl
@[simp] theorem State.setRam_stkful (a : DAddr) (v : Byte) : (s.setRam a v).stkful = s.stkful := rfl
@[simp] theorem State.setRam_stkunf (a : DAddr) (v : Byte) : (s.setRam a v).stkunf = s.stkunf := rfl
@[simp] theorem State.setRam_stack (a : DAddr) (v : Byte) : (s.setRam a v).stack = s.stack := rfl
@[simp] theorem State.setRam_fast (a : DAddr) (v : Byte) : (s.setRam a v).fast = s.fast := rfl
@[simp] theorem State.setRam_hold (a : DAddr) (v : Byte) : (s.setRam a v).hold = s.hold := rfl
@[simp] theorem State.setRam_intcon (a : DAddr) (v : Byte) : (s.setRam a v).intcon = s.intcon := rfl
@[simp] theorem State.setRam_intcon2 (a : DAddr) (v : Byte) : (s.setRam a v).intcon2 = s.intcon2 := rfl
@[simp] theorem State.setRam_intcon3 (a : DAddr) (v : Byte) : (s.setRam a v).intcon3 = s.intcon3 := rfl
@[simp] theorem State.setRam_rcon (a : DAddr) (v : Byte) : (s.setRam a v).rcon = s.rcon := rfl
@[simp] theorem State.setRam_pir1 (a : DAddr) (v : Byte) : (s.setRam a v).pir1 = s.pir1 := rfl
@[simp] theorem State.setRam_pie1 (a : DAddr) (v : Byte) : (s.setRam a v).pie1 = s.pie1 := rfl
@[simp] theorem State.setRam_ipr1 (a : DAddr) (v : Byte) : (s.setRam a v).ipr1 = s.ipr1 := rfl
@[simp] theorem State.setRam_pir2 (a : DAddr) (v : Byte) : (s.setRam a v).pir2 = s.pir2 := rfl
@[simp] theorem State.setRam_pie2 (a : DAddr) (v : Byte) : (s.setRam a v).pie2 = s.pie2 := rfl
@[simp] theorem State.setRam_ipr2 (a : DAddr) (v : Byte) : (s.setRam a v).ipr2 = s.ipr2 := rfl
@[simp] theorem State.setRam_isrLevel (a : DAddr) (v : Byte) : (s.setRam a v).isrLevel = s.isrLevel := rfl
@[simp] theorem State.setRam_sleeping (a : DAddr) (v : Byte) : (s.setRam a v).sleeping = s.sleeping := rfl
@[simp] theorem State.setRam_wdt (a : DAddr) (v : Byte) : (s.setRam a v).wdt = s.wdt := rfl
@[simp] theorem State.setRam_flashWriteBusy (a : DAddr) (v : Byte) : (s.setRam a v).flashWriteBusy = s.flashWriteBusy := rfl
@[simp] theorem State.setRam_data (a : DAddr) (v : Byte) : (s.setRam a v).data = s.data.write Config.dataFill a.toNat v := rfl
@[simp] theorem State.setRam_prog (a : DAddr) (v : Byte) : (s.setRam a v).prog = s.prog := rfl
@[simp] theorem State.setRam_draws (a : DAddr) (v : Byte) : (s.setRam a v).draws = s.draws := rfl
@[simp] theorem State.setRam_env (a : DAddr) (v : Byte) : (s.setRam a v).env = s.env := rfl

/-! ### setProgByte -/

@[simp] theorem State.setProgByte_pc (a : Nat) (v : Byte) : (s.setProgByte a v).pc = s.pc := rfl
@[simp] theorem State.setProgByte_pclath (a : Nat) (v : Byte) : (s.setProgByte a v).pclath = s.pclath := rfl
@[simp] theorem State.setProgByte_pclatu (a : Nat) (v : Byte) : (s.setProgByte a v).pclatu = s.pclatu := rfl
@[simp] theorem State.setProgByte_w (a : Nat) (v : Byte) : (s.setProgByte a v).w = s.w := rfl
@[simp] theorem State.setProgByte_status (a : Nat) (v : Byte) : (s.setProgByte a v).status = s.status := rfl
@[simp] theorem State.setProgByte_bsr (a : Nat) (v : Byte) : (s.setProgByte a v).bsr = s.bsr := rfl
@[simp] theorem State.setProgByte_fsr0 (a : Nat) (v : Byte) : (s.setProgByte a v).fsr0 = s.fsr0 := rfl
@[simp] theorem State.setProgByte_fsr1 (a : Nat) (v : Byte) : (s.setProgByte a v).fsr1 = s.fsr1 := rfl
@[simp] theorem State.setProgByte_fsr2 (a : Nat) (v : Byte) : (s.setProgByte a v).fsr2 = s.fsr2 := rfl
@[simp] theorem State.setProgByte_prodh (a : Nat) (v : Byte) : (s.setProgByte a v).prodh = s.prodh := rfl
@[simp] theorem State.setProgByte_prodl (a : Nat) (v : Byte) : (s.setProgByte a v).prodl = s.prodl := rfl
@[simp] theorem State.setProgByte_tblptr (a : Nat) (v : Byte) : (s.setProgByte a v).tblptr = s.tblptr := rfl
@[simp] theorem State.setProgByte_tablat (a : Nat) (v : Byte) : (s.setProgByte a v).tablat = s.tablat := rfl
@[simp] theorem State.setProgByte_sp (a : Nat) (v : Byte) : (s.setProgByte a v).sp = s.sp := rfl
@[simp] theorem State.setProgByte_stkful (a : Nat) (v : Byte) : (s.setProgByte a v).stkful = s.stkful := rfl
@[simp] theorem State.setProgByte_stkunf (a : Nat) (v : Byte) : (s.setProgByte a v).stkunf = s.stkunf := rfl
@[simp] theorem State.setProgByte_stack (a : Nat) (v : Byte) : (s.setProgByte a v).stack = s.stack := rfl
@[simp] theorem State.setProgByte_fast (a : Nat) (v : Byte) : (s.setProgByte a v).fast = s.fast := rfl
@[simp] theorem State.setProgByte_hold (a : Nat) (v : Byte) : (s.setProgByte a v).hold = s.hold := rfl
@[simp] theorem State.setProgByte_intcon (a : Nat) (v : Byte) : (s.setProgByte a v).intcon = s.intcon := rfl
@[simp] theorem State.setProgByte_intcon2 (a : Nat) (v : Byte) : (s.setProgByte a v).intcon2 = s.intcon2 := rfl
@[simp] theorem State.setProgByte_intcon3 (a : Nat) (v : Byte) : (s.setProgByte a v).intcon3 = s.intcon3 := rfl
@[simp] theorem State.setProgByte_rcon (a : Nat) (v : Byte) : (s.setProgByte a v).rcon = s.rcon := rfl
@[simp] theorem State.setProgByte_pir1 (a : Nat) (v : Byte) : (s.setProgByte a v).pir1 = s.pir1 := rfl
@[simp] theorem State.setProgByte_pie1 (a : Nat) (v : Byte) : (s.setProgByte a v).pie1 = s.pie1 := rfl
@[simp] theorem State.setProgByte_ipr1 (a : Nat) (v : Byte) : (s.setProgByte a v).ipr1 = s.ipr1 := rfl
@[simp] theorem State.setProgByte_pir2 (a : Nat) (v : Byte) : (s.setProgByte a v).pir2 = s.pir2 := rfl
@[simp] theorem State.setProgByte_pie2 (a : Nat) (v : Byte) : (s.setProgByte a v).pie2 = s.pie2 := rfl
@[simp] theorem State.setProgByte_ipr2 (a : Nat) (v : Byte) : (s.setProgByte a v).ipr2 = s.ipr2 := rfl
@[simp] theorem State.setProgByte_isrLevel (a : Nat) (v : Byte) : (s.setProgByte a v).isrLevel = s.isrLevel := rfl
@[simp] theorem State.setProgByte_sleeping (a : Nat) (v : Byte) : (s.setProgByte a v).sleeping = s.sleeping := rfl
@[simp] theorem State.setProgByte_wdt (a : Nat) (v : Byte) : (s.setProgByte a v).wdt = s.wdt := rfl
@[simp] theorem State.setProgByte_flashWriteBusy (a : Nat) (v : Byte) : (s.setProgByte a v).flashWriteBusy = s.flashWriteBusy := rfl
@[simp] theorem State.setProgByte_data (a : Nat) (v : Byte) : (s.setProgByte a v).data = s.data := rfl
@[simp] theorem State.setProgByte_prog (a : Nat) (v : Byte) : (s.setProgByte a v).prog = s.prog.write Config.progFill a v := rfl
@[simp] theorem State.setProgByte_draws (a : Nat) (v : Byte) : (s.setProgByte a v).draws = s.draws := rfl
@[simp] theorem State.setProgByte_env (a : Nat) (v : Byte) : (s.setProgByte a v).env = s.env := rfl

/-! ### setStackEntry -/

@[simp] theorem State.setStackEntry_pc (i : BitVec 5) (v : BitVec 21) : (s.setStackEntry i v).pc = s.pc := by unfold State.setStackEntry; split <;> rfl
@[simp] theorem State.setStackEntry_pclath (i : BitVec 5) (v : BitVec 21) : (s.setStackEntry i v).pclath = s.pclath := by unfold State.setStackEntry; split <;> rfl
@[simp] theorem State.setStackEntry_pclatu (i : BitVec 5) (v : BitVec 21) : (s.setStackEntry i v).pclatu = s.pclatu := by unfold State.setStackEntry; split <;> rfl
@[simp] theorem State.setStackEntry_w (i : BitVec 5) (v : BitVec 21) : (s.setStackEntry i v).w = s.w := by unfold State.setStackEntry; split <;> rfl
@[simp] theorem State.setStackEntry_status (i : BitVec 5) (v : BitVec 21) : (s.setStackEntry i v).status = s.status := by unfold State.setStackEntry; split <;> rfl
@[simp] theorem State.setStackEntry_bsr (i : BitVec 5) (v : BitVec 21) : (s.setStackEntry i v).bsr = s.bsr := by unfold State.setStackEntry; split <;> rfl
@[simp] theorem State.setStackEntry_fsr0 (i : BitVec 5) (v : BitVec 21) : (s.setStackEntry i v).fsr0 = s.fsr0 := by unfold State.setStackEntry; split <;> rfl
@[simp] theorem State.setStackEntry_fsr1 (i : BitVec 5) (v : BitVec 21) : (s.setStackEntry i v).fsr1 = s.fsr1 := by unfold State.setStackEntry; split <;> rfl
@[simp] theorem State.setStackEntry_fsr2 (i : BitVec 5) (v : BitVec 21) : (s.setStackEntry i v).fsr2 = s.fsr2 := by unfold State.setStackEntry; split <;> rfl
@[simp] theorem State.setStackEntry_prodh (i : BitVec 5) (v : BitVec 21) : (s.setStackEntry i v).prodh = s.prodh := by unfold State.setStackEntry; split <;> rfl
@[simp] theorem State.setStackEntry_prodl (i : BitVec 5) (v : BitVec 21) : (s.setStackEntry i v).prodl = s.prodl := by unfold State.setStackEntry; split <;> rfl
@[simp] theorem State.setStackEntry_tblptr (i : BitVec 5) (v : BitVec 21) : (s.setStackEntry i v).tblptr = s.tblptr := by unfold State.setStackEntry; split <;> rfl
@[simp] theorem State.setStackEntry_tablat (i : BitVec 5) (v : BitVec 21) : (s.setStackEntry i v).tablat = s.tablat := by unfold State.setStackEntry; split <;> rfl
@[simp] theorem State.setStackEntry_sp (i : BitVec 5) (v : BitVec 21) : (s.setStackEntry i v).sp = s.sp := by unfold State.setStackEntry; split <;> rfl
@[simp] theorem State.setStackEntry_stkful (i : BitVec 5) (v : BitVec 21) : (s.setStackEntry i v).stkful = s.stkful := by unfold State.setStackEntry; split <;> rfl
@[simp] theorem State.setStackEntry_stkunf (i : BitVec 5) (v : BitVec 21) : (s.setStackEntry i v).stkunf = s.stkunf := by unfold State.setStackEntry; split <;> rfl
@[simp] theorem State.setStackEntry_fast (i : BitVec 5) (v : BitVec 21) : (s.setStackEntry i v).fast = s.fast := by unfold State.setStackEntry; split <;> rfl
@[simp] theorem State.setStackEntry_hold (i : BitVec 5) (v : BitVec 21) : (s.setStackEntry i v).hold = s.hold := by unfold State.setStackEntry; split <;> rfl
@[simp] theorem State.setStackEntry_intcon (i : BitVec 5) (v : BitVec 21) : (s.setStackEntry i v).intcon = s.intcon := by unfold State.setStackEntry; split <;> rfl
@[simp] theorem State.setStackEntry_intcon2 (i : BitVec 5) (v : BitVec 21) : (s.setStackEntry i v).intcon2 = s.intcon2 := by unfold State.setStackEntry; split <;> rfl
@[simp] theorem State.setStackEntry_intcon3 (i : BitVec 5) (v : BitVec 21) : (s.setStackEntry i v).intcon3 = s.intcon3 := by unfold State.setStackEntry; split <;> rfl
@[simp] theorem State.setStackEntry_rcon (i : BitVec 5) (v : BitVec 21) : (s.setStackEntry i v).rcon = s.rcon := by unfold State.setStackEntry; split <;> rfl
@[simp] theorem State.setStackEntry_pir1 (i : BitVec 5) (v : BitVec 21) : (s.setStackEntry i v).pir1 = s.pir1 := by unfold State.setStackEntry; split <;> rfl
@[simp] theorem State.setStackEntry_pie1 (i : BitVec 5) (v : BitVec 21) : (s.setStackEntry i v).pie1 = s.pie1 := by unfold State.setStackEntry; split <;> rfl
@[simp] theorem State.setStackEntry_ipr1 (i : BitVec 5) (v : BitVec 21) : (s.setStackEntry i v).ipr1 = s.ipr1 := by unfold State.setStackEntry; split <;> rfl
@[simp] theorem State.setStackEntry_pir2 (i : BitVec 5) (v : BitVec 21) : (s.setStackEntry i v).pir2 = s.pir2 := by unfold State.setStackEntry; split <;> rfl
@[simp] theorem State.setStackEntry_pie2 (i : BitVec 5) (v : BitVec 21) : (s.setStackEntry i v).pie2 = s.pie2 := by unfold State.setStackEntry; split <;> rfl
@[simp] theorem State.setStackEntry_ipr2 (i : BitVec 5) (v : BitVec 21) : (s.setStackEntry i v).ipr2 = s.ipr2 := by unfold State.setStackEntry; split <;> rfl
@[simp] theorem State.setStackEntry_isrLevel (i : BitVec 5) (v : BitVec 21) : (s.setStackEntry i v).isrLevel = s.isrLevel := by unfold State.setStackEntry; split <;> rfl
@[simp] theorem State.setStackEntry_sleeping (i : BitVec 5) (v : BitVec 21) : (s.setStackEntry i v).sleeping = s.sleeping := by unfold State.setStackEntry; split <;> rfl
@[simp] theorem State.setStackEntry_wdt (i : BitVec 5) (v : BitVec 21) : (s.setStackEntry i v).wdt = s.wdt := by unfold State.setStackEntry; split <;> rfl
@[simp] theorem State.setStackEntry_flashWriteBusy (i : BitVec 5) (v : BitVec 21) : (s.setStackEntry i v).flashWriteBusy = s.flashWriteBusy := by unfold State.setStackEntry; split <;> rfl
@[simp] theorem State.setStackEntry_data (i : BitVec 5) (v : BitVec 21) : (s.setStackEntry i v).data = s.data := by unfold State.setStackEntry; split <;> rfl
@[simp] theorem State.setStackEntry_prog (i : BitVec 5) (v : BitVec 21) : (s.setStackEntry i v).prog = s.prog := by unfold State.setStackEntry; split <;> rfl
@[simp] theorem State.setStackEntry_draws (i : BitVec 5) (v : BitVec 21) : (s.setStackEntry i v).draws = s.draws := by unfold State.setStackEntry; split <;> rfl
@[simp] theorem State.setStackEntry_env (i : BitVec 5) (v : BitVec 21) : (s.setStackEntry i v).env = s.env := by unfold State.setStackEntry; split <;> rfl

/-! ### saveFast -/

@[simp] theorem State.saveFast_pc : (s.saveFast).pc = s.pc := rfl
@[simp] theorem State.saveFast_pclath : (s.saveFast).pclath = s.pclath := rfl
@[simp] theorem State.saveFast_pclatu : (s.saveFast).pclatu = s.pclatu := rfl
@[simp] theorem State.saveFast_w : (s.saveFast).w = s.w := rfl
@[simp] theorem State.saveFast_status : (s.saveFast).status = s.status := rfl
@[simp] theorem State.saveFast_bsr : (s.saveFast).bsr = s.bsr := rfl
@[simp] theorem State.saveFast_fsr0 : (s.saveFast).fsr0 = s.fsr0 := rfl
@[simp] theorem State.saveFast_fsr1 : (s.saveFast).fsr1 = s.fsr1 := rfl
@[simp] theorem State.saveFast_fsr2 : (s.saveFast).fsr2 = s.fsr2 := rfl
@[simp] theorem State.saveFast_prodh : (s.saveFast).prodh = s.prodh := rfl
@[simp] theorem State.saveFast_prodl : (s.saveFast).prodl = s.prodl := rfl
@[simp] theorem State.saveFast_tblptr : (s.saveFast).tblptr = s.tblptr := rfl
@[simp] theorem State.saveFast_tablat : (s.saveFast).tablat = s.tablat := rfl
@[simp] theorem State.saveFast_sp : (s.saveFast).sp = s.sp := rfl
@[simp] theorem State.saveFast_stkful : (s.saveFast).stkful = s.stkful := rfl
@[simp] theorem State.saveFast_stkunf : (s.saveFast).stkunf = s.stkunf := rfl
@[simp] theorem State.saveFast_stack : (s.saveFast).stack = s.stack := rfl
@[simp] theorem State.saveFast_fast : (s.saveFast).fast = ⟨s.w, s.status, s.bsr⟩ := rfl
@[simp] theorem State.saveFast_hold : (s.saveFast).hold = s.hold := rfl
@[simp] theorem State.saveFast_intcon : (s.saveFast).intcon = s.intcon := rfl
@[simp] theorem State.saveFast_intcon2 : (s.saveFast).intcon2 = s.intcon2 := rfl
@[simp] theorem State.saveFast_intcon3 : (s.saveFast).intcon3 = s.intcon3 := rfl
@[simp] theorem State.saveFast_rcon : (s.saveFast).rcon = s.rcon := rfl
@[simp] theorem State.saveFast_pir1 : (s.saveFast).pir1 = s.pir1 := rfl
@[simp] theorem State.saveFast_pie1 : (s.saveFast).pie1 = s.pie1 := rfl
@[simp] theorem State.saveFast_ipr1 : (s.saveFast).ipr1 = s.ipr1 := rfl
@[simp] theorem State.saveFast_pir2 : (s.saveFast).pir2 = s.pir2 := rfl
@[simp] theorem State.saveFast_pie2 : (s.saveFast).pie2 = s.pie2 := rfl
@[simp] theorem State.saveFast_ipr2 : (s.saveFast).ipr2 = s.ipr2 := rfl
@[simp] theorem State.saveFast_isrLevel : (s.saveFast).isrLevel = s.isrLevel := rfl
@[simp] theorem State.saveFast_sleeping : (s.saveFast).sleeping = s.sleeping := rfl
@[simp] theorem State.saveFast_wdt : (s.saveFast).wdt = s.wdt := rfl
@[simp] theorem State.saveFast_flashWriteBusy : (s.saveFast).flashWriteBusy = s.flashWriteBusy := rfl
@[simp] theorem State.saveFast_data : (s.saveFast).data = s.data := rfl
@[simp] theorem State.saveFast_prog : (s.saveFast).prog = s.prog := rfl
@[simp] theorem State.saveFast_draws : (s.saveFast).draws = s.draws := rfl
@[simp] theorem State.saveFast_env : (s.saveFast).env = s.env := rfl

/-! ### restoreFast -/

@[simp] theorem State.restoreFast_pc : (s.restoreFast).pc = s.pc := rfl
@[simp] theorem State.restoreFast_pclath : (s.restoreFast).pclath = s.pclath := rfl
@[simp] theorem State.restoreFast_pclatu : (s.restoreFast).pclatu = s.pclatu := rfl
@[simp] theorem State.restoreFast_w : (s.restoreFast).w = s.fast.ws := rfl
@[simp] theorem State.restoreFast_status : (s.restoreFast).status = s.fast.statuss := rfl
@[simp] theorem State.restoreFast_bsr : (s.restoreFast).bsr = s.fast.bsrs := rfl
@[simp] theorem State.restoreFast_fsr0 : (s.restoreFast).fsr0 = s.fsr0 := rfl
@[simp] theorem State.restoreFast_fsr1 : (s.restoreFast).fsr1 = s.fsr1 := rfl
@[simp] theorem State.restoreFast_fsr2 : (s.restoreFast).fsr2 = s.fsr2 := rfl
@[simp] theorem State.restoreFast_prodh : (s.restoreFast).prodh = s.prodh := rfl
@[simp] theorem State.restoreFast_prodl : (s.restoreFast).prodl = s.prodl := rfl
@[simp] theorem State.restoreFast_tblptr : (s.restoreFast).tblptr = s.tblptr := rfl
@[simp] theorem State.restoreFast_tablat : (s.restoreFast).tablat = s.tablat := rfl
@[simp] theorem State.restoreFast_sp : (s.restoreFast).sp = s.sp := rfl
@[simp] theorem State.restoreFast_stkful : (s.restoreFast).stkful = s.stkful := rfl
@[simp] theorem State.restoreFast_stkunf : (s.restoreFast).stkunf = s.stkunf := rfl
@[simp] theorem State.restoreFast_stack : (s.restoreFast).stack = s.stack := rfl
@[simp] theorem State.restoreFast_fast : (s.restoreFast).fast = s.fast := rfl
@[simp] theorem State.restoreFast_hold : (s.restoreFast).hold = s.hold := rfl
@[simp] theorem State.restoreFast_intcon : (s.restoreFast).intcon = s.intcon := rfl
@[simp] theorem State.restoreFast_intcon2 : (s.restoreFast).intcon2 = s.intcon2 := rfl
@[simp] theorem State.restoreFast_intcon3 : (s.restoreFast).intcon3 = s.intcon3 := rfl
@[simp] theorem State.restoreFast_rcon : (s.restoreFast).rcon = s.rcon := rfl
@[simp] theorem State.restoreFast_pir1 : (s.restoreFast).pir1 = s.pir1 := rfl
@[simp] theorem State.restoreFast_pie1 : (s.restoreFast).pie1 = s.pie1 := rfl
@[simp] theorem State.restoreFast_ipr1 : (s.restoreFast).ipr1 = s.ipr1 := rfl
@[simp] theorem State.restoreFast_pir2 : (s.restoreFast).pir2 = s.pir2 := rfl
@[simp] theorem State.restoreFast_pie2 : (s.restoreFast).pie2 = s.pie2 := rfl
@[simp] theorem State.restoreFast_ipr2 : (s.restoreFast).ipr2 = s.ipr2 := rfl
@[simp] theorem State.restoreFast_isrLevel : (s.restoreFast).isrLevel = s.isrLevel := rfl
@[simp] theorem State.restoreFast_sleeping : (s.restoreFast).sleeping = s.sleeping := rfl
@[simp] theorem State.restoreFast_wdt : (s.restoreFast).wdt = s.wdt := rfl
@[simp] theorem State.restoreFast_flashWriteBusy : (s.restoreFast).flashWriteBusy = s.flashWriteBusy := rfl
@[simp] theorem State.restoreFast_data : (s.restoreFast).data = s.data := rfl
@[simp] theorem State.restoreFast_prog : (s.restoreFast).prog = s.prog := rfl
@[simp] theorem State.restoreFast_draws : (s.restoreFast).draws = s.draws := rfl
@[simp] theorem State.restoreFast_env : (s.restoreFast).env = s.env := rfl

/-! ### tableWrite -/

@[simp] theorem State.tableWrite_pc : (s.tableWrite).pc = s.pc := rfl
@[simp] theorem State.tableWrite_pclath : (s.tableWrite).pclath = s.pclath := rfl
@[simp] theorem State.tableWrite_pclatu : (s.tableWrite).pclatu = s.pclatu := rfl
@[simp] theorem State.tableWrite_w : (s.tableWrite).w = s.w := rfl
@[simp] theorem State.tableWrite_status : (s.tableWrite).status = s.status := rfl
@[simp] theorem State.tableWrite_bsr : (s.tableWrite).bsr = s.bsr := rfl
@[simp] theorem State.tableWrite_fsr0 : (s.tableWrite).fsr0 = s.fsr0 := rfl
@[simp] theorem State.tableWrite_fsr1 : (s.tableWrite).fsr1 = s.fsr1 := rfl
@[simp] theorem State.tableWrite_fsr2 : (s.tableWrite).fsr2 = s.fsr2 := rfl
@[simp] theorem State.tableWrite_prodh : (s.tableWrite).prodh = s.prodh := rfl
@[simp] theorem State.tableWrite_prodl : (s.tableWrite).prodl = s.prodl := rfl
@[simp] theorem State.tableWrite_tblptr : (s.tableWrite).tblptr = s.tblptr := rfl
@[simp] theorem State.tableWrite_tablat : (s.tableWrite).tablat = s.tablat := rfl
@[simp] theorem State.tableWrite_sp : (s.tableWrite).sp = s.sp := rfl
@[simp] theorem State.tableWrite_stkful : (s.tableWrite).stkful = s.stkful := rfl
@[simp] theorem State.tableWrite_stkunf : (s.tableWrite).stkunf = s.stkunf := rfl
@[simp] theorem State.tableWrite_stack : (s.tableWrite).stack = s.stack := rfl
@[simp] theorem State.tableWrite_fast : (s.tableWrite).fast = s.fast := rfl
@[simp] theorem State.tableWrite_hold : (s.tableWrite).hold = s.hold.setIfInBounds (s.tblptr.toNat % 8) s.tablat := rfl
@[simp] theorem State.tableWrite_intcon : (s.tableWrite).intcon = s.intcon := rfl
@[simp] theorem State.tableWrite_intcon2 : (s.tableWrite).intcon2 = s.intcon2 := rfl
@[simp] theorem State.tableWrite_intcon3 : (s.tableWrite).intcon3 = s.intcon3 := rfl
@[simp] theorem State.tableWrite_rcon : (s.tableWrite).rcon = s.rcon := rfl
@[simp] theorem State.tableWrite_pir1 : (s.tableWrite).pir1 = s.pir1 := rfl
@[simp] theorem State.tableWrite_pie1 : (s.tableWrite).pie1 = s.pie1 := rfl
@[simp] theorem State.tableWrite_ipr1 : (s.tableWrite).ipr1 = s.ipr1 := rfl
@[simp] theorem State.tableWrite_pir2 : (s.tableWrite).pir2 = s.pir2 := rfl
@[simp] theorem State.tableWrite_pie2 : (s.tableWrite).pie2 = s.pie2 := rfl
@[simp] theorem State.tableWrite_ipr2 : (s.tableWrite).ipr2 = s.ipr2 := rfl
@[simp] theorem State.tableWrite_isrLevel : (s.tableWrite).isrLevel = s.isrLevel := rfl
@[simp] theorem State.tableWrite_sleeping : (s.tableWrite).sleeping = s.sleeping := rfl
@[simp] theorem State.tableWrite_wdt : (s.tableWrite).wdt = s.wdt := rfl
@[simp] theorem State.tableWrite_flashWriteBusy : (s.tableWrite).flashWriteBusy = s.flashWriteBusy := rfl
@[simp] theorem State.tableWrite_data : (s.tableWrite).data = s.data := rfl
@[simp] theorem State.tableWrite_prog : (s.tableWrite).prog = s.prog := rfl
@[simp] theorem State.tableWrite_draws : (s.tableWrite).draws = s.draws := rfl
@[simp] theorem State.tableWrite_env : (s.tableWrite).env = s.env := rfl

/-! ### tblptrInc -/

@[simp] theorem State.tblptrInc_pc : (s.tblptrInc).pc = s.pc := rfl
@[simp] theorem State.tblptrInc_pclath : (s.tblptrInc).pclath = s.pclath := rfl
@[simp] theorem State.tblptrInc_pclatu : (s.tblptrInc).pclatu = s.pclatu := rfl
@[simp] theorem State.tblptrInc_w : (s.tblptrInc).w = s.w := rfl
@[simp] theorem State.tblptrInc_status : (s.tblptrInc).status = s.status := rfl
@[simp] theorem State.tblptrInc_bsr : (s.tblptrInc).bsr = s.bsr := rfl
@[simp] theorem State.tblptrInc_fsr0 : (s.tblptrInc).fsr0 = s.fsr0 := rfl
@[simp] theorem State.tblptrInc_fsr1 : (s.tblptrInc).fsr1 = s.fsr1 := rfl
@[simp] theorem State.tblptrInc_fsr2 : (s.tblptrInc).fsr2 = s.fsr2 := rfl
@[simp] theorem State.tblptrInc_prodh : (s.tblptrInc).prodh = s.prodh := rfl
@[simp] theorem State.tblptrInc_prodl : (s.tblptrInc).prodl = s.prodl := rfl
@[simp] theorem State.tblptrInc_tblptr : (s.tblptrInc).tblptr = s.tblptr + 1#22 := rfl
@[simp] theorem State.tblptrInc_tablat : (s.tblptrInc).tablat = s.tablat := rfl
@[simp] theorem State.tblptrInc_sp : (s.tblptrInc).sp = s.sp := rfl
@[simp] theorem State.tblptrInc_stkful : (s.tblptrInc).stkful = s.stkful := rfl
@[simp] theorem State.tblptrInc_stkunf : (s.tblptrInc).stkunf = s.stkunf := rfl
@[simp] theorem State.tblptrInc_stack : (s.tblptrInc).stack = s.stack := rfl
@[simp] theorem State.tblptrInc_fast : (s.tblptrInc).fast = s.fast := rfl
@[simp] theorem State.tblptrInc_hold : (s.tblptrInc).hold = s.hold := rfl
@[simp] theorem State.tblptrInc_intcon : (s.tblptrInc).intcon = s.intcon := rfl
@[simp] theorem State.tblptrInc_intcon2 : (s.tblptrInc).intcon2 = s.intcon2 := rfl
@[simp] theorem State.tblptrInc_intcon3 : (s.tblptrInc).intcon3 = s.intcon3 := rfl
@[simp] theorem State.tblptrInc_rcon : (s.tblptrInc).rcon = s.rcon := rfl
@[simp] theorem State.tblptrInc_pir1 : (s.tblptrInc).pir1 = s.pir1 := rfl
@[simp] theorem State.tblptrInc_pie1 : (s.tblptrInc).pie1 = s.pie1 := rfl
@[simp] theorem State.tblptrInc_ipr1 : (s.tblptrInc).ipr1 = s.ipr1 := rfl
@[simp] theorem State.tblptrInc_pir2 : (s.tblptrInc).pir2 = s.pir2 := rfl
@[simp] theorem State.tblptrInc_pie2 : (s.tblptrInc).pie2 = s.pie2 := rfl
@[simp] theorem State.tblptrInc_ipr2 : (s.tblptrInc).ipr2 = s.ipr2 := rfl
@[simp] theorem State.tblptrInc_isrLevel : (s.tblptrInc).isrLevel = s.isrLevel := rfl
@[simp] theorem State.tblptrInc_sleeping : (s.tblptrInc).sleeping = s.sleeping := rfl
@[simp] theorem State.tblptrInc_wdt : (s.tblptrInc).wdt = s.wdt := rfl
@[simp] theorem State.tblptrInc_flashWriteBusy : (s.tblptrInc).flashWriteBusy = s.flashWriteBusy := rfl
@[simp] theorem State.tblptrInc_data : (s.tblptrInc).data = s.data := rfl
@[simp] theorem State.tblptrInc_prog : (s.tblptrInc).prog = s.prog := rfl
@[simp] theorem State.tblptrInc_draws : (s.tblptrInc).draws = s.draws := rfl
@[simp] theorem State.tblptrInc_env : (s.tblptrInc).env = s.env := rfl

/-! ### tblptrDec -/

@[simp] theorem State.tblptrDec_pc : (s.tblptrDec).pc = s.pc := rfl
@[simp] theorem State.tblptrDec_pclath : (s.tblptrDec).pclath = s.pclath := rfl
@[simp] theorem State.tblptrDec_pclatu : (s.tblptrDec).pclatu = s.pclatu := rfl
@[simp] theorem State.tblptrDec_w : (s.tblptrDec).w = s.w := rfl
@[simp] theorem State.tblptrDec_status : (s.tblptrDec).status = s.status := rfl
@[simp] theorem State.tblptrDec_bsr : (s.tblptrDec).bsr = s.bsr := rfl
@[simp] theorem State.tblptrDec_fsr0 : (s.tblptrDec).fsr0 = s.fsr0 := rfl
@[simp] theorem State.tblptrDec_fsr1 : (s.tblptrDec).fsr1 = s.fsr1 := rfl
@[simp] theorem State.tblptrDec_fsr2 : (s.tblptrDec).fsr2 = s.fsr2 := rfl
@[simp] theorem State.tblptrDec_prodh : (s.tblptrDec).prodh = s.prodh := rfl
@[simp] theorem State.tblptrDec_prodl : (s.tblptrDec).prodl = s.prodl := rfl
@[simp] theorem State.tblptrDec_tblptr : (s.tblptrDec).tblptr = s.tblptr - 1#22 := rfl
@[simp] theorem State.tblptrDec_tablat : (s.tblptrDec).tablat = s.tablat := rfl
@[simp] theorem State.tblptrDec_sp : (s.tblptrDec).sp = s.sp := rfl
@[simp] theorem State.tblptrDec_stkful : (s.tblptrDec).stkful = s.stkful := rfl
@[simp] theorem State.tblptrDec_stkunf : (s.tblptrDec).stkunf = s.stkunf := rfl
@[simp] theorem State.tblptrDec_stack : (s.tblptrDec).stack = s.stack := rfl
@[simp] theorem State.tblptrDec_fast : (s.tblptrDec).fast = s.fast := rfl
@[simp] theorem State.tblptrDec_hold : (s.tblptrDec).hold = s.hold := rfl
@[simp] theorem State.tblptrDec_intcon : (s.tblptrDec).intcon = s.intcon := rfl
@[simp] theorem State.tblptrDec_intcon2 : (s.tblptrDec).intcon2 = s.intcon2 := rfl
@[simp] theorem State.tblptrDec_intcon3 : (s.tblptrDec).intcon3 = s.intcon3 := rfl
@[simp] theorem State.tblptrDec_rcon : (s.tblptrDec).rcon = s.rcon := rfl
@[simp] theorem State.tblptrDec_pir1 : (s.tblptrDec).pir1 = s.pir1 := rfl
@[simp] theorem State.tblptrDec_pie1 : (s.tblptrDec).pie1 = s.pie1 := rfl
@[simp] theorem State.tblptrDec_ipr1 : (s.tblptrDec).ipr1 = s.ipr1 := rfl
@[simp] theorem State.tblptrDec_pir2 : (s.tblptrDec).pir2 = s.pir2 := rfl
@[simp] theorem State.tblptrDec_pie2 : (s.tblptrDec).pie2 = s.pie2 := rfl
@[simp] theorem State.tblptrDec_ipr2 : (s.tblptrDec).ipr2 = s.ipr2 := rfl
@[simp] theorem State.tblptrDec_isrLevel : (s.tblptrDec).isrLevel = s.isrLevel := rfl
@[simp] theorem State.tblptrDec_sleeping : (s.tblptrDec).sleeping = s.sleeping := rfl
@[simp] theorem State.tblptrDec_wdt : (s.tblptrDec).wdt = s.wdt := rfl
@[simp] theorem State.tblptrDec_flashWriteBusy : (s.tblptrDec).flashWriteBusy = s.flashWriteBusy := rfl
@[simp] theorem State.tblptrDec_data : (s.tblptrDec).data = s.data := rfl
@[simp] theorem State.tblptrDec_prog : (s.tblptrDec).prog = s.prog := rfl
@[simp] theorem State.tblptrDec_draws : (s.tblptrDec).draws = s.draws := rfl
@[simp] theorem State.tblptrDec_env : (s.tblptrDec).env = s.env := rfl

/-! ### setFlags -/

@[simp] theorem State.setFlags_pc (fw : FlagWrite) : (s.setFlags fw).pc = s.pc := rfl
@[simp] theorem State.setFlags_pclath (fw : FlagWrite) : (s.setFlags fw).pclath = s.pclath := rfl
@[simp] theorem State.setFlags_pclatu (fw : FlagWrite) : (s.setFlags fw).pclatu = s.pclatu := rfl
@[simp] theorem State.setFlags_w (fw : FlagWrite) : (s.setFlags fw).w = s.w := rfl
@[simp] theorem State.setFlags_status (fw : FlagWrite) : (s.setFlags fw).status = s.status.setFlags fw := rfl
@[simp] theorem State.setFlags_bsr (fw : FlagWrite) : (s.setFlags fw).bsr = s.bsr := rfl
@[simp] theorem State.setFlags_fsr0 (fw : FlagWrite) : (s.setFlags fw).fsr0 = s.fsr0 := rfl
@[simp] theorem State.setFlags_fsr1 (fw : FlagWrite) : (s.setFlags fw).fsr1 = s.fsr1 := rfl
@[simp] theorem State.setFlags_fsr2 (fw : FlagWrite) : (s.setFlags fw).fsr2 = s.fsr2 := rfl
@[simp] theorem State.setFlags_prodh (fw : FlagWrite) : (s.setFlags fw).prodh = s.prodh := rfl
@[simp] theorem State.setFlags_prodl (fw : FlagWrite) : (s.setFlags fw).prodl = s.prodl := rfl
@[simp] theorem State.setFlags_tblptr (fw : FlagWrite) : (s.setFlags fw).tblptr = s.tblptr := rfl
@[simp] theorem State.setFlags_tablat (fw : FlagWrite) : (s.setFlags fw).tablat = s.tablat := rfl
@[simp] theorem State.setFlags_sp (fw : FlagWrite) : (s.setFlags fw).sp = s.sp := rfl
@[simp] theorem State.setFlags_stkful (fw : FlagWrite) : (s.setFlags fw).stkful = s.stkful := rfl
@[simp] theorem State.setFlags_stkunf (fw : FlagWrite) : (s.setFlags fw).stkunf = s.stkunf := rfl
@[simp] theorem State.setFlags_stack (fw : FlagWrite) : (s.setFlags fw).stack = s.stack := rfl
@[simp] theorem State.setFlags_fast (fw : FlagWrite) : (s.setFlags fw).fast = s.fast := rfl
@[simp] theorem State.setFlags_hold (fw : FlagWrite) : (s.setFlags fw).hold = s.hold := rfl
@[simp] theorem State.setFlags_intcon (fw : FlagWrite) : (s.setFlags fw).intcon = s.intcon := rfl
@[simp] theorem State.setFlags_intcon2 (fw : FlagWrite) : (s.setFlags fw).intcon2 = s.intcon2 := rfl
@[simp] theorem State.setFlags_intcon3 (fw : FlagWrite) : (s.setFlags fw).intcon3 = s.intcon3 := rfl
@[simp] theorem State.setFlags_rcon (fw : FlagWrite) : (s.setFlags fw).rcon = s.rcon := rfl
@[simp] theorem State.setFlags_pir1 (fw : FlagWrite) : (s.setFlags fw).pir1 = s.pir1 := rfl
@[simp] theorem State.setFlags_pie1 (fw : FlagWrite) : (s.setFlags fw).pie1 = s.pie1 := rfl
@[simp] theorem State.setFlags_ipr1 (fw : FlagWrite) : (s.setFlags fw).ipr1 = s.ipr1 := rfl
@[simp] theorem State.setFlags_pir2 (fw : FlagWrite) : (s.setFlags fw).pir2 = s.pir2 := rfl
@[simp] theorem State.setFlags_pie2 (fw : FlagWrite) : (s.setFlags fw).pie2 = s.pie2 := rfl
@[simp] theorem State.setFlags_ipr2 (fw : FlagWrite) : (s.setFlags fw).ipr2 = s.ipr2 := rfl
@[simp] theorem State.setFlags_isrLevel (fw : FlagWrite) : (s.setFlags fw).isrLevel = s.isrLevel := rfl
@[simp] theorem State.setFlags_sleeping (fw : FlagWrite) : (s.setFlags fw).sleeping = s.sleeping := rfl
@[simp] theorem State.setFlags_wdt (fw : FlagWrite) : (s.setFlags fw).wdt = s.wdt := rfl
@[simp] theorem State.setFlags_flashWriteBusy (fw : FlagWrite) : (s.setFlags fw).flashWriteBusy = s.flashWriteBusy := rfl
@[simp] theorem State.setFlags_data (fw : FlagWrite) : (s.setFlags fw).data = s.data := rfl
@[simp] theorem State.setFlags_prog (fw : FlagWrite) : (s.setFlags fw).prog = s.prog := rfl
@[simp] theorem State.setFlags_draws (fw : FlagWrite) : (s.setFlags fw).draws = s.draws := rfl
@[simp] theorem State.setFlags_env (fw : FlagWrite) : (s.setFlags fw).env = s.env := rfl

/-! ### setProd -/

@[simp] theorem State.setProd_pc (p : BitVec 16) : (s.setProd p).pc = s.pc := rfl
@[simp] theorem State.setProd_pclath (p : BitVec 16) : (s.setProd p).pclath = s.pclath := rfl
@[simp] theorem State.setProd_pclatu (p : BitVec 16) : (s.setProd p).pclatu = s.pclatu := rfl
@[simp] theorem State.setProd_w (p : BitVec 16) : (s.setProd p).w = s.w := rfl
@[simp] theorem State.setProd_status (p : BitVec 16) : (s.setProd p).status = s.status := rfl
@[simp] theorem State.setProd_bsr (p : BitVec 16) : (s.setProd p).bsr = s.bsr := rfl
@[simp] theorem State.setProd_fsr0 (p : BitVec 16) : (s.setProd p).fsr0 = s.fsr0 := rfl
@[simp] theorem State.setProd_fsr1 (p : BitVec 16) : (s.setProd p).fsr1 = s.fsr1 := rfl
@[simp] theorem State.setProd_fsr2 (p : BitVec 16) : (s.setProd p).fsr2 = s.fsr2 := rfl
@[simp] theorem State.setProd_prodh (p : BitVec 16) : (s.setProd p).prodh = p.extractLsb' 8 8 := rfl
@[simp] theorem State.setProd_prodl (p : BitVec 16) : (s.setProd p).prodl = p.extractLsb' 0 8 := rfl
@[simp] theorem State.setProd_tblptr (p : BitVec 16) : (s.setProd p).tblptr = s.tblptr := rfl
@[simp] theorem State.setProd_tablat (p : BitVec 16) : (s.setProd p).tablat = s.tablat := rfl
@[simp] theorem State.setProd_sp (p : BitVec 16) : (s.setProd p).sp = s.sp := rfl
@[simp] theorem State.setProd_stkful (p : BitVec 16) : (s.setProd p).stkful = s.stkful := rfl
@[simp] theorem State.setProd_stkunf (p : BitVec 16) : (s.setProd p).stkunf = s.stkunf := rfl
@[simp] theorem State.setProd_stack (p : BitVec 16) : (s.setProd p).stack = s.stack := rfl
@[simp] theorem State.setProd_fast (p : BitVec 16) : (s.setProd p).fast = s.fast := rfl
@[simp] theorem State.setProd_hold (p : BitVec 16) : (s.setProd p).hold = s.hold := rfl
@[simp] theorem State.setProd_intcon (p : BitVec 16) : (s.setProd p).intcon = s.intcon := rfl
@[simp] theorem State.setProd_intcon2 (p : BitVec 16) : (s.setProd p).intcon2 = s.intcon2 := rfl
@[simp] theorem State.setProd_intcon3 (p : BitVec 16) : (s.setProd p).intcon3 = s.intcon3 := rfl
@[simp] theorem State.setProd_rcon (p : BitVec 16) : (s.setProd p).rcon = s.rcon := rfl
@[simp] theorem State.setProd_pir1 (p : BitVec 16) : (s.setProd p).pir1 = s.pir1 := rfl
@[simp] theorem State.setProd_pie1 (p : BitVec 16) : (s.setProd p).pie1 = s.pie1 := rfl
@[simp] theorem State.setProd_ipr1 (p : BitVec 16) : (s.setProd p).ipr1 = s.ipr1 := rfl
@[simp] theorem State.setProd_pir2 (p : BitVec 16) : (s.setProd p).pir2 = s.pir2 := rfl
@[simp] theorem State.setProd_pie2 (p : BitVec 16) : (s.setProd p).pie2 = s.pie2 := rfl
@[simp] theorem State.setProd_ipr2 (p : BitVec 16) : (s.setProd p).ipr2 = s.ipr2 := rfl
@[simp] theorem State.setProd_isrLevel (p : BitVec 16) : (s.setProd p).isrLevel = s.isrLevel := rfl
@[simp] theorem State.setProd_sleeping (p : BitVec 16) : (s.setProd p).sleeping = s.sleeping := rfl
@[simp] theorem State.setProd_wdt (p : BitVec 16) : (s.setProd p).wdt = s.wdt := rfl
@[simp] theorem State.setProd_flashWriteBusy (p : BitVec 16) : (s.setProd p).flashWriteBusy = s.flashWriteBusy := rfl
@[simp] theorem State.setProd_data (p : BitVec 16) : (s.setProd p).data = s.data := rfl
@[simp] theorem State.setProd_prog (p : BitVec 16) : (s.setProd p).prog = s.prog := rfl
@[simp] theorem State.setProd_draws (p : BitVec 16) : (s.setProd p).draws = s.draws := rfl
@[simp] theorem State.setProd_env (p : BitVec 16) : (s.setProd p).env = s.env := rfl

/-! ### setFsr -/

@[simp] theorem State.setFsr_pc (n : FsrIndex) (v : BitVec 12) : (s.setFsr n v).pc = s.pc := by cases n <;> rfl
@[simp] theorem State.setFsr_pclath (n : FsrIndex) (v : BitVec 12) : (s.setFsr n v).pclath = s.pclath := by cases n <;> rfl
@[simp] theorem State.setFsr_pclatu (n : FsrIndex) (v : BitVec 12) : (s.setFsr n v).pclatu = s.pclatu := by cases n <;> rfl
@[simp] theorem State.setFsr_w (n : FsrIndex) (v : BitVec 12) : (s.setFsr n v).w = s.w := by cases n <;> rfl
@[simp] theorem State.setFsr_status (n : FsrIndex) (v : BitVec 12) : (s.setFsr n v).status = s.status := by cases n <;> rfl
@[simp] theorem State.setFsr_bsr (n : FsrIndex) (v : BitVec 12) : (s.setFsr n v).bsr = s.bsr := by cases n <;> rfl
@[simp] theorem State.setFsr_prodh (n : FsrIndex) (v : BitVec 12) : (s.setFsr n v).prodh = s.prodh := by cases n <;> rfl
@[simp] theorem State.setFsr_prodl (n : FsrIndex) (v : BitVec 12) : (s.setFsr n v).prodl = s.prodl := by cases n <;> rfl
@[simp] theorem State.setFsr_tblptr (n : FsrIndex) (v : BitVec 12) : (s.setFsr n v).tblptr = s.tblptr := by cases n <;> rfl
@[simp] theorem State.setFsr_tablat (n : FsrIndex) (v : BitVec 12) : (s.setFsr n v).tablat = s.tablat := by cases n <;> rfl
@[simp] theorem State.setFsr_sp (n : FsrIndex) (v : BitVec 12) : (s.setFsr n v).sp = s.sp := by cases n <;> rfl
@[simp] theorem State.setFsr_stkful (n : FsrIndex) (v : BitVec 12) : (s.setFsr n v).stkful = s.stkful := by cases n <;> rfl
@[simp] theorem State.setFsr_stkunf (n : FsrIndex) (v : BitVec 12) : (s.setFsr n v).stkunf = s.stkunf := by cases n <;> rfl
@[simp] theorem State.setFsr_stack (n : FsrIndex) (v : BitVec 12) : (s.setFsr n v).stack = s.stack := by cases n <;> rfl
@[simp] theorem State.setFsr_fast (n : FsrIndex) (v : BitVec 12) : (s.setFsr n v).fast = s.fast := by cases n <;> rfl
@[simp] theorem State.setFsr_hold (n : FsrIndex) (v : BitVec 12) : (s.setFsr n v).hold = s.hold := by cases n <;> rfl
@[simp] theorem State.setFsr_intcon (n : FsrIndex) (v : BitVec 12) : (s.setFsr n v).intcon = s.intcon := by cases n <;> rfl
@[simp] theorem State.setFsr_intcon2 (n : FsrIndex) (v : BitVec 12) : (s.setFsr n v).intcon2 = s.intcon2 := by cases n <;> rfl
@[simp] theorem State.setFsr_intcon3 (n : FsrIndex) (v : BitVec 12) : (s.setFsr n v).intcon3 = s.intcon3 := by cases n <;> rfl
@[simp] theorem State.setFsr_rcon (n : FsrIndex) (v : BitVec 12) : (s.setFsr n v).rcon = s.rcon := by cases n <;> rfl
@[simp] theorem State.setFsr_pir1 (n : FsrIndex) (v : BitVec 12) : (s.setFsr n v).pir1 = s.pir1 := by cases n <;> rfl
@[simp] theorem State.setFsr_pie1 (n : FsrIndex) (v : BitVec 12) : (s.setFsr n v).pie1 = s.pie1 := by cases n <;> rfl
@[simp] theorem State.setFsr_ipr1 (n : FsrIndex) (v : BitVec 12) : (s.setFsr n v).ipr1 = s.ipr1 := by cases n <;> rfl
@[simp] theorem State.setFsr_pir2 (n : FsrIndex) (v : BitVec 12) : (s.setFsr n v).pir2 = s.pir2 := by cases n <;> rfl
@[simp] theorem State.setFsr_pie2 (n : FsrIndex) (v : BitVec 12) : (s.setFsr n v).pie2 = s.pie2 := by cases n <;> rfl
@[simp] theorem State.setFsr_ipr2 (n : FsrIndex) (v : BitVec 12) : (s.setFsr n v).ipr2 = s.ipr2 := by cases n <;> rfl
@[simp] theorem State.setFsr_isrLevel (n : FsrIndex) (v : BitVec 12) : (s.setFsr n v).isrLevel = s.isrLevel := by cases n <;> rfl
@[simp] theorem State.setFsr_sleeping (n : FsrIndex) (v : BitVec 12) : (s.setFsr n v).sleeping = s.sleeping := by cases n <;> rfl
@[simp] theorem State.setFsr_wdt (n : FsrIndex) (v : BitVec 12) : (s.setFsr n v).wdt = s.wdt := by cases n <;> rfl
@[simp] theorem State.setFsr_flashWriteBusy (n : FsrIndex) (v : BitVec 12) : (s.setFsr n v).flashWriteBusy = s.flashWriteBusy := by cases n <;> rfl
@[simp] theorem State.setFsr_data (n : FsrIndex) (v : BitVec 12) : (s.setFsr n v).data = s.data := by cases n <;> rfl
@[simp] theorem State.setFsr_prog (n : FsrIndex) (v : BitVec 12) : (s.setFsr n v).prog = s.prog := by cases n <;> rfl
@[simp] theorem State.setFsr_draws (n : FsrIndex) (v : BitVec 12) : (s.setFsr n v).draws = s.draws := by cases n <;> rfl
@[simp] theorem State.setFsr_env (n : FsrIndex) (v : BitVec 12) : (s.setFsr n v).env = s.env := by cases n <;> rfl

/-! ### Accessors over updates -/

@[simp] theorem State.fsr_setFsr_same (n : FsrIndex) (v : BitVec 12) : (s.setFsr n v).fsr n = v := by cases n <;> rfl

theorem State.fsr_setFsr_other (n m : FsrIndex) (v : BitVec 12) (h : m ≠ n) : (s.setFsr n v).fsr m = s.fsr m := by
  cases n <;> cases m <;> first | rfl | exact absurd rfl h

@[simp] theorem State.setFsr_fsr_self (n : FsrIndex) : s.setFsr n (s.fsr n) = s := by cases n <;> rfl

theorem State.fsr_congr {s t : State} (h0 : t.fsr0 = s.fsr0) (h1 : t.fsr1 = s.fsr1) (h2 : t.fsr2 = s.fsr2)
    (n : FsrIndex) : t.fsr n = s.fsr n := by cases n <;> assumption

@[simp] theorem State.fsr_jump (v : PAddr) (n : FsrIndex) : (s.jump v).fsr n = s.fsr n := by cases n <;> rfl
@[simp] theorem State.fsr_advance (k : Nat) (n : FsrIndex) : (s.advance k).fsr n = s.fsr n := by cases n <;> rfl
@[simp] theorem State.fsr_setFlags (fw : FlagWrite) (n : FsrIndex) : (s.setFlags fw).fsr n = s.fsr n := by cases n <;> rfl

/-- An entry depends on the stack alone. -/
theorem State.stackEntry_congr {s t : State} (h : t.stack = s.stack) (i : BitVec 5) :
    t.stackEntry i = s.stackEntry i := by
  simp only [State.stackEntry, h]

/-- Setting an existing entry and reading it back. -/
@[simp] theorem State.stackEntry_setStackEntry_same (i : BitVec 5) (v : BitVec 21) (h : i ≠ 0#5) :
    (s.setStackEntry i v).stackEntry i = v := by
  have hlt : i.toNat - 1 < 31 := by have := i.isLt; omega
  simp [State.stackEntry, State.setStackEntry, h, hlt]

/-- Setting one entry leaves every other. -/
theorem State.stackEntry_setStackEntry_other (i j : BitVec 5) (v : BitVec 21) (hj : j ≠ 0#5) (h : j ≠ i) :
    (s.setStackEntry i v).stackEntry j = s.stackEntry j := by
  by_cases hi : i = 0#5
  · simp [State.setStackEntry, hi]
  · have hi' : i.toNat ≠ 0 := fun e => hi (by apply BitVec.eq_of_toNat_eq; simpa using e)
    have hj' : j.toNat ≠ 0 := fun e => hj (by apply BitVec.eq_of_toNat_eq; simpa using e)
    have hne : i.toNat - 1 ≠ j.toNat - 1 := by
      intro e; exact h (BitVec.eq_of_toNat_eq (by omega))
    simp [State.stackEntry, State.setStackEntry, hi, hne]

/-- Bit 0 of a loaded pc is clear (R27). -/
theorem evenPc_bit0 (v : PAddr) : (evenPc v).getLsbD 0 = false := by simp [evenPc]

/-- An even address is loaded as it is. -/
theorem evenPc_of_even (v : PAddr) (h : v.getLsbD 0 = false) : evenPc v = v := by
  have hm : ∀ i : Fin 21, (0x1FFFFE#21).getLsbD i.val = decide (i.val ≠ 0) := by decide
  apply BitVec.eq_of_getLsbD_eq
  intro i hi
  have hmi := hm ⟨i, hi⟩
  simp only [evenPc, BitVec.getLsbD_and]
  by_cases h0 : i = 0
  · subst h0; rw [h]; rfl
  · have : (2097150#21).getLsbD i = true := by simpa [h0] using hmi
    rw [this, Bool.and_true]

end Sys2Proof.Machine
end

