-- ==== Sys2Proof/Laws/Control.lean ====
section
/-! SUPPORT. The return stack, table reads, interrupt entry and return: what each answers, said once. -/

namespace Sys2Proof.Machine

/-! ### Targets (R131, R132) -/

theorem toNat_append_zero {w : Nat} (x : BitVec w) : (x ++ 0#1).toNat = 2 * x.toNat := by
  rw [BitVec.toNat_append]; simp [Nat.shiftLeft_eq, Nat.mul_comm]

/-- The absolute target is twice the word address. -/
theorem absTarget_eq (k : BitVec 20) : absTarget k = BitVec.ofNat 21 (2 * k.toNat) := by
  apply BitVec.eq_of_toNat_eq
  have h := toNat_append_zero k
  have hk := k.isLt
  rw [BitVec.toNat_ofNat, Nat.mod_eq_of_lt (by omega)]
  exact h

/-- The absolute target is even. -/
@[simp] theorem evenPc_absTarget (k : BitVec 20) : evenPc (absTarget k) = absTarget k := by
  apply evenPc_of_even
  rw [absTarget_eq]
  simp only [BitVec.getLsbD_ofNat]
  simp [Nat.testBit]

/-- The relative target as integer arithmetic modulo 2^21. -/
theorem relTarget_eq {k : Nat} (pc : PAddr) (n : BitVec k) :
    relTarget pc n = BitVec.ofInt 21 (pc.toNat + 2 + 2 * n.toInt) := by
  have h1 : n.signExtend 21 = BitVec.ofInt 21 n.toInt := by simp [BitVec.signExtend]
  unfold relTarget
  rw [h1, BitVec.ofInt_add, BitVec.ofInt_add, BitVec.ofInt_mul]
  simp

/-! ### The return stack (R43, R44) -/

/-- The state after a push that has room. -/
def pushed (v : BitVec 21) (s : State) : State := { s with sp := s.sp + 1#5 }.setStackEntry (s.sp + 1#5) v

/-- What `push` answers. -/
theorem push_ok_iff {v : BitVec 21} {s t : State} : push v s = .ok t ↔ s.sp.toNat + 1 < 31 ∧ t = pushed v s := by
  unfold push pushed Config.stackDepth
  split
  · rename_i h
    simp only [reduceCtorEq, false_iff, not_and]
    omega
  · rename_i h
    simp only [Except.ok.injEq]
    constructor
    · rintro rfl; exact ⟨by omega, rfl⟩
    · rintro ⟨-, rfl⟩; rfl

/-- Why `push` stops. -/
theorem push_error_iff {v : BitVec 21} {s : State} {e : Fault} :
    push v s = .error e ↔ 31 ≤ s.sp.toNat + 1 ∧ e = .stackOverflow := by
  unfold push Config.stackDepth
  split
  · simp_all [eq_comm]
  · simp_all

/-- The pointer after a push is not 0. -/
theorem sp_succ_ne_zero {s : State} (h : s.sp.toNat + 1 < 31) : s.sp + 1#5 ≠ 0#5 := by
  intro e
  have := congrArg BitVec.toNat e
  simp [BitVec.toNat_add] at this
  omega

@[simp] theorem pushed_sp (v : BitVec 21) (s : State) : (pushed v s).sp = s.sp + 1#5 := by simp [pushed]

/-- The value pushed is the new top. -/
theorem pushed_top {v : BitVec 21} {s : State} (h : s.sp.toNat + 1 < 31) :
    (pushed v s).stackEntry (s.sp + 1#5) = v :=
  State.stackEntry_setStackEntry_same _ _ _ (sp_succ_ne_zero h)

/-- Every other entry stays. -/
theorem pushed_other {v : BitVec 21} {s : State} {j : BitVec 5} (hj : j ≠ 0#5) (h : j ≠ s.sp + 1#5) :
    (pushed v s).stackEntry j = s.stackEntry j :=
  State.stackEntry_setStackEntry_other _ _ _ _ hj h

/-- A push changes the pointer and the stack alone. -/
theorem pushed_eq (v : BitVec 21) (s : State) :
    pushed v s = { s with sp := (pushed v s).sp, stack := (pushed v s).stack } := by
  unfold pushed State.setStackEntry
  split <;> rfl

/-- What `pop` answers. -/
theorem pop_ok_iff {s : State} {p : BitVec 21 × State} :
    pop s = .ok p ↔ s.sp ≠ 0#5 ∧ p = (s.stackEntry s.sp, { s with sp := s.sp - 1#5 }) := by
  unfold pop
  split
  · rename_i h
    exact ⟨fun h' => (by cases h'), fun h' => absurd h h'.1⟩
  · rename_i h
    refine ⟨fun h' => ?_, fun h' => by rw [h'.2]⟩
    injection h' with h'
    exact ⟨h, h'.symm⟩

/-- Why `pop` stops. -/
theorem pop_error_iff {s : State} {e : Fault} : pop s = .error e ↔ s.sp = 0#5 ∧ e = .stackUnderflow := by
  unfold pop
  split
  · rename_i h
    refine ⟨fun h' => ?_, fun h' => by rw [h'.2]⟩
    injection h' with h'
    exact ⟨h, h'.symm⟩
  · rename_i h
    exact ⟨fun h' => (by cases h'), fun h' => absurd h'.1 h⟩

/-! ### Table reads (R101) -/

/-- What `tblread` answers. -/
theorem tableRead_ok_iff {s t : State} :
    tableRead s = .ok t ↔
      s.tblptr.toNat < Config.progMemBytes ∧ t = { s with tablat := s.progByte s.tblptr.toNat } := by
  unfold tableRead
  split
  · rename_i h
    simp only [reduceCtorEq, false_iff, not_and]
    omega
  · rename_i h
    simp only [Except.ok.injEq]
    constructor
    · rintro rfl; exact ⟨by omega, rfl⟩
    · rintro ⟨-, rfl⟩; rfl

/-! ### Interrupts (R316, R318) -/

/-- What interrupt entry answers. -/
theorem takeInterrupt_ok_iff {lvl : IrqLevel} {s t : State} :
    takeInterrupt lvl s = .ok t ↔
      s.sp.toNat + 1 < 31 ∧
        t =
          { pushed s.pc { s with sleeping := false } with
            fast := ⟨s.w, s.status, s.bsr⟩
            intcon := s.intcon.setEnable lvl false
            isrLevel := lvl :: s.isrLevel
            pc := lvl.vector } := by
  unfold takeInterrupt
  cases h : push s.pc { s with sleeping := false } with
  | error e =>
    have := (push_error_iff.1 h).1
    simp only [reduceCtorEq, false_iff, not_and]
    intro h'
    simp only at this
    omega
  | ok s1 =>
    obtain ⟨h1, rfl⟩ := push_ok_iff.1 h
    simp only at h1
    have he := pushed_eq s.pc { s with sleeping := false }
    simp only [Except.ok.injEq, h1, true_and]
    rw [he]
    exact eq_comm

/-- Why interrupt entry stops. -/
theorem takeInterrupt_error_iff {lvl : IrqLevel} {s : State} {e : Fault} :
    takeInterrupt lvl s = .error e ↔ 31 ≤ s.sp.toNat + 1 ∧ e = .stackOverflow := by
  unfold takeInterrupt
  cases h : push s.pc { s with sleeping := false } with
  | error e' =>
    obtain ⟨h1, rfl⟩ := push_error_iff.1 h
    simp only at h1
    simp [h1, eq_comm]
  | ok s1 =>
    obtain ⟨h1, -⟩ := push_ok_iff.1 h
    simp only at h1
    simp only [reduceCtorEq, false_iff, not_and]
    omega

/-- What RETFIE's operation answers. -/
theorem returnFromInterrupt_ok_iff {fast : Bool} {s t : State} :
    returnFromInterrupt fast s = .ok t ↔
      s.sp ≠ 0#5 ∧
        t = (({ s with sp := s.sp - 1#5 }.jump (s.stackEntry s.sp)).leaveIsr).restoreFastIf fast := by
  unfold returnFromInterrupt
  cases h : pop s with
  | error e => simp [(pop_error_iff.1 h).1]
  | ok p =>
    obtain ⟨h1, rfl⟩ := pop_ok_iff.1 h
    simp [h1, eq_comm]

end Sys2Proof.Machine
end

