-- ==== Sys2Proof/Laws/Decode.lean ====
section
/-! SUPPORT. The fields of the words the encoder builds, as the decoder takes them out, and what decoding one word or two
answers. -/

namespace Sys2Proof

/-! ### Joining and splitting fields -/

/-- The low part of two joined fields. -/
theorem extract_low_of_append {w v : Nat} (x : BitVec w) (y : BitVec v) : (x ++ y).extractLsb' 0 v = y := by
  apply BitVec.eq_of_getLsbD_eq; intro i hi; simp [BitVec.getLsbD_append, hi]

/-- The high part of two joined fields. -/
theorem extract_high_of_append {w v : Nat} (x : BitVec w) (y : BitVec v) : (x ++ y).extractLsb' v w = x := by
  apply BitVec.eq_of_getLsbD_eq; intro i hi; simp [BitVec.getLsbD_append, hi]

/-- A value is its high and low parts joined. -/
theorem append_of_extracts {w v : Nat} (x : BitVec (w + v)) : x.extractLsb' v w ++ x.extractLsb' 0 v = x := by
  apply BitVec.eq_of_getLsbD_eq; intro i hi
  by_cases h : i < v
  · simp [BitVec.getLsbD_append, h]
  · have h1 : i - v < w := by omega
    have h2 : v + (i - v) = i := by omega
    simp [BitVec.getLsbD_append, h, h1, h2]

/-- The number two joined fields make. -/
theorem toNat_append_eq {w v : Nat} (x : BitVec w) (y : BitVec v) : (x ++ y).toNat = x.toNat * 2 ^ v + y.toNat := by
  rw [BitVec.toNat_append, ← Nat.shiftLeft_add_eq_or_of_lt y.isLt, Nat.shiftLeft_eq]

@[simp] theorem lo_mkWord (hi lo : Byte) : (mkWord hi lo).lo = lo := extract_low_of_append hi lo

@[simp] theorem hi_mkWord (hi lo : Byte) : (mkWord hi lo).hi = hi := extract_high_of_append hi lo

/-- A word is its two bytes. -/
@[simp] theorem mkWord_hi_lo (x : IWord) : mkWord x.hi x.lo = x := append_of_extracts (w := 8) (v := 8) x

@[simp] theorem low_nibble_of_append (x y : BitVec 4) : (x ++ y : BitVec 8).extractLsb' 0 4 = y :=
  extract_low_of_append x y

@[simp] theorem high_nibble_of_append (x y : BitVec 4) : (x ++ y : BitVec 8).extractLsb' 4 4 = x :=
  extract_high_of_append x y

@[simp] theorem join_nibbles (x : BitVec 8) : (x.extractLsb' 4 4 ++ x.extractLsb' 0 4 : BitVec 8) = x :=
  append_of_extracts (w := 4) (v := 4) x

@[simp] theorem join12 (x : BitVec 12) : (x.extractLsb' 8 4 ++ x.extractLsb' 0 8 : BitVec 12) = x :=
  append_of_extracts (w := 4) (v := 8) x

@[simp] theorem join11 (x : BitVec 11) : (x.extractLsb' 8 3 ++ x.extractLsb' 0 8 : BitVec 11) = x :=
  append_of_extracts (w := 3) (v := 8) x

@[simp] theorem join20 (x : BitVec 20) : (x.extractLsb' 8 12 ++ x.extractLsb' 0 8 : BitVec 20) = x :=
  append_of_extracts (w := 12) (v := 8) x

/-! ### The high byte of each format -/

/-- Format BIT (R124). -/
theorem bit_format_fields (op : BitVec 4) (b : BitVec 3) (a : Bool) :
    (op ++ b ++ BitVec.ofBool a : BitVec 8).extractLsb' 4 4 = op ∧
      (op ++ b ++ BitVec.ofBool a : BitVec 8).extractLsb' 1 3 = b ∧
      (op ++ b ++ BitVec.ofBool a : BitVec 8).getLsbD 0 = a := by
  revert op b a; decide

/-- Format BRANCH11 (R127). -/
theorem branch11_format_fields (op : BitVec 5) (n : BitVec 3) :
    (op ++ n : BitVec 8).extractLsb' 4 4 = op.extractLsb' 1 4 ∧
      (op ++ n : BitVec 8).getLsbD 3 = op.getLsbD 0 ∧ (op ++ n : BitVec 8).extractLsb' 0 3 = n := by
  revert op n; decide

/-- Format BYTE_D (R122). -/
theorem byteD_format_fields (op : BitVec 6) (d a : Bool) :
    (op ++ BitVec.ofBool d ++ BitVec.ofBool a : BitVec 8).extractLsb' 2 6 = op ∧
      (op ++ BitVec.ofBool d ++ BitVec.ofBool a : BitVec 8).getLsbD 1 = d ∧
      (op ++ BitVec.ofBool d ++ BitVec.ofBool a : BitVec 8).getLsbD 0 = a := by
  revert op d a; decide

/-! ### Decoding one instruction -/

/-- A first word that is a whole instruction. -/
theorem decodeOn_one {b : Bool} {hi lo : Byte} {i : Instr} (h : decodeFirst b hi lo = .one i) (rest : List Byte) :
    decodeOn b (lo :: hi :: rest) = .ok i rest := by
  simp [decodeOn, h]

/-- A first word that is no row. -/
theorem decodeOn_illegal {b : Bool} {hi lo : Byte} (h : decodeFirst b hi lo = .illegal) (rest : List Byte) :
    decodeOn b (lo :: hi :: rest) = .illegalInstruction := by
  simp [decodeOn, h]

/-- A first word that needs a second, with the second. -/
theorem decodeOn_two {b : Bool} {hi lo : Byte} {first : First} (h : decodeFirst b hi lo = first)
    (h1 : ∀ i, first ≠ .one i) (h2 : first ≠ .illegal) (lo2 hi2 : Byte) (rest : List Byte) :
    decodeOn b (lo :: hi :: lo2 :: hi2 :: rest) =
      match decodeSecond first hi2 lo2 with
      | some i => .ok i rest
      | none => .malformedSecondWord := by
  subst h
  cases hf : decodeFirst b hi lo with
  | one i => exact absurd hf (h1 i)
  | illegal => exact absurd hf h2
  | movff fs => simp only [decodeOn, hf] <;> rfl
  | lfsr ff k => simp only [decodeOn, hf] <;> rfl
  | call s k => simp only [decodeOn, hf] <;> rfl
  | goto k => simp only [decodeOn, hf] <;> rfl

/-- The encoder's bytes of a one-word instruction decode by their first word. -/
theorem decode_encodeBytes_one {i : Instr} {x : IWord} (he : encode i = [x])
    (h : decodeFirst Config.hasSubfwbDaw x.hi x.lo = .one i) (rest : List Byte) :
    decode (encodeBytes i ++ rest) = .ok i rest := by
  simp only [encodeBytes, he, wordBytes, List.cons_append, List.nil_append, decode]
  exact decodeOn_one h rest

end Sys2Proof
end

