-- ==== Sys2Proof/Laws/Flags.lean ====
section
/-! SUPPORT. Flag writes, and the register bytes of STATUS, INTCON and RCON. -/

namespace Sys2Proof.Machine

/-! ### `setflags` (R31) -/

@[simp] theorem Status.setFlags_n (st : Status) (fw : FlagWrite) : (st.setFlags fw).n = fw.n.getD st.n := rfl
@[simp] theorem Status.setFlags_ov (st : Status) (fw : FlagWrite) : (st.setFlags fw).ov = fw.ov.getD st.ov := rfl
@[simp] theorem Status.setFlags_z (st : Status) (fw : FlagWrite) : (st.setFlags fw).z = fw.z.getD st.z := rfl
@[simp] theorem Status.setFlags_dc (st : Status) (fw : FlagWrite) : (st.setFlags fw).dc = fw.dc.getD st.dc := rfl
@[simp] theorem Status.setFlags_c (st : Status) (fw : FlagWrite) : (st.setFlags fw).c = fw.c.getD st.c := rfl

/-- Naming no flag changes nothing. -/
@[simp] theorem Status.setFlags_nothing (st : Status) : st.setFlags .nothing = st := rfl

@[simp] theorem State.setFlags_nothing (s : State) : s.setFlags .nothing = s := rfl

@[simp] theorem FlagWrite.affects_nothing : FlagWrite.nothing.affects = false := rfl

@[simp] theorem affects_add8 (a b : Byte) (cin : Bool) : (add8 a b cin).2.affects = true := rfl

@[simp] theorem affects_sub8 (a b : Byte) (bin : Bool) : (sub8 a b bin).2.affects = true := rfl

@[simp] theorem affects_flagsZN (r : Byte) : (flagsZN r).affects = true := rfl

/-! ### Register bytes -/

/-- STATUS read back after a data write: bits 4:0 (R30). -/
@[simp] theorem Status.ofByte_toByte (st : Status) : Status.ofByte st.toByte = st := by
  obtain ⟨n, ov, z, dc, c⟩ := st
  cases n <;> cases ov <;> cases z <;> cases dc <;> cases c <;> decide

/-- The byte of STATUS after a data write: bits 7:5 read 0. -/
theorem Status.toByte_ofByte (v : Byte) : (Status.ofByte v).toByte = v &&& 0x1F#8 := by
  revert v; decide

@[simp] theorem Intcon.toByte_ofByte (v : Byte) : (Intcon.ofByte v).toByte = v := by
  revert v; decide

/-- The byte of RCON after a data write: bits 6:5 read 0 (R62). -/
theorem Rcon.toByte_ofByte (v : Byte) : (Rcon.ofByte v).toByte = v &&& 0x9F#8 := by
  revert v; decide

@[simp] theorem Rcon.ofByte_toByte (r : Rcon) : Rcon.ofByte r.toByte = r := by
  obtain ⟨a, b, c, d, e, f⟩ := r
  cases a <;> cases b <;> cases c <;> cases d <;> cases e <;> cases f <;> decide

/-! ### The result of an addition (R32) -/

theorem add8_result (a b : Byte) (cin : Bool) :
    (add8 a b cin).1 = a + b + BitVec.ofNat 8 cin.toNat := by
  apply BitVec.eq_of_toNat_eq
  simp [add8, BitVec.toNat_add]

theorem sub8_eq (a b : Byte) (bin : Bool) : sub8 a b bin = add8 a (~~~b) (!bin) := rfl

end Sys2Proof.Machine
end

