-- ==== Sys2Proof/Laws/Memory.lean ====
section
/-! SUPPORT. The laws of byte memories: reading after writing, and that writing keeps the canonical form. -/

namespace Sys2Proof.Machine.Memory

variable {fill : Byte}

/-- Reading another address after a write gives what it gave before. -/
theorem read_write_other (m : Memory) (a b : Nat) (v : Byte) (h : b ≠ a) :
    (m.write fill a v).read fill b = m.read fill b := by
  induction m with
  | nil => simp only [write]; split <;> simp [read, h]
  | cons c m ih =>
    obtain ⟨x, u⟩ := c
    simp only [write]
    split
    · split <;> simp [read, h]
    · split
      · rename_i _ hax
        subst hax
        split <;> simp [read, h]
      · simp only [read, ih]

/-- An address below every entry is unlisted. -/
theorem read_below (m : Memory) (a : Nat) (h : ∀ c ∈ m, a < c.1) : m.read fill a = fill := by
  induction m with
  | nil => rfl
  | cons c m ih =>
    have hc := h c (by simp)
    have : a ≠ c.1 := by omega
    simp only [read, if_neg this]
    exact ih fun d hd => h d (by simp [hd])

/-- Reading the address written gives the value written, in a memory in canonical form. -/
theorem read_write_same (m : Memory) (a : Nat) (v : Byte) (hm : m.wf fill) : (m.write fill a v).read fill a = v := by
  induction m with
  | nil => simp only [write]; split <;> simp_all [read]
  | cons c m ih =>
    obtain ⟨x, u⟩ := c
    obtain ⟨hp, hf⟩ := hm
    rw [List.pairwise_cons] at hp
    have htail : Memory.wf fill m := ⟨hp.2, fun d hd => hf d (by simp [hd])⟩
    simp only [write]
    split
    · rename_i hlt
      split
      · rename_i hv
        have : a ≠ x := by omega
        rw [hv]
        refine read_below _ _ fun d hd => ?_
        rcases List.mem_cons.1 hd with rfl | hd
        · exact hlt
        · exact Nat.lt_trans hlt (hp.1 d hd)
      · simp [read]
    · split
      · rename_i _ heq
        split
        · rename_i hv
          rw [hv]
          exact read_below _ _ fun d hd => heq ▸ hp.1 d hd
        · simp [read]
      · rename_i hne
        simp only [read, if_neg hne]
        exact ih htail

/-- The entries after a write: old ones, or the one written. -/
theorem mem_write (m : Memory) (a : Nat) (v : Byte) (c : Host.Cell) (h : c ∈ m.write fill a v) :
    c ∈ m ∨ (c = (a, v) ∧ v ≠ fill) := by
  induction m with
  | nil =>
    simp only [write] at h
    split at h
    · exact absurd h (by simp)
    · exact .inr ⟨by simpa using h, by assumption⟩
  | cons d m ih =>
    obtain ⟨x, u⟩ := d
    simp only [write] at h
    split at h
    · split at h
      · exact .inl h
      · rcases List.mem_cons.1 h with rfl | h
        · exact .inr ⟨rfl, by assumption⟩
        · exact .inl h
    · split at h
      · split at h
        · exact .inl (List.mem_cons_of_mem _ h)
        · rcases List.mem_cons.1 h with rfl | h
          · exact .inr ⟨rfl, by assumption⟩
          · exact .inl (List.mem_cons_of_mem _ h)
      · rcases List.mem_cons.1 h with rfl | h
        · exact .inl (by simp)
        · rcases ih h with h | h
          · exact .inl (List.mem_cons_of_mem _ h)
          · exact .inr h

/-- A write keeps the canonical form. -/
theorem write_wf (m : Memory) (a : Nat) (v : Byte) (hm : m.wf fill) : (m.write fill a v).wf fill := by
  refine ⟨?_, fun c hc => ?_⟩
  · obtain ⟨hp, -⟩ := hm
    induction m with
    | nil => simp only [write]; split <;> simp
    | cons d m ih =>
      obtain ⟨x, u⟩ := d
      rw [List.pairwise_cons] at hp
      simp only [write]
      split
      · rename_i hlt
        split
        · exact List.pairwise_cons.2 hp
        · refine List.pairwise_cons.2 ⟨fun e he => ?_, List.pairwise_cons.2 hp⟩
          rcases List.mem_cons.1 he with rfl | he
          · exact hlt
          · exact Nat.lt_trans hlt (hp.1 e he)
      · split
        · rename_i _ heq
          split
          · exact hp.2
          · exact List.pairwise_cons.2 ⟨fun e he => heq ▸ hp.1 e he, hp.2⟩
        · rename_i hnlt hne
          refine List.pairwise_cons.2 ⟨fun e he => ?_, ih hp.2⟩
          rcases mem_write m a v e he with he | ⟨rfl, -⟩
          · exact hp.1 e he
          · show x < a; omega
  · rcases mem_write m a v c hc with h | ⟨rfl, h⟩
    · exact hm.2 c h
    · exact h

end Sys2Proof.Machine.Memory
end

