-- ==== Sys2Proof/Laws/Operands.lean ====
section
/-! SUPPORT. Data operands: the register map, resolution of windows, and what resolving, reading and writing an operand do,
said once for the instructions. -/

namespace Sys2Proof.Machine

/-! ### The register map -/

/-- A lookup that succeeds found a row. -/
theorem mem_of_lookup {α : Type} {k : Nat} {v : α} : ∀ {l : List (Nat × α)}, l.lookup k = some v → (k, v) ∈ l
  | (k', v') :: l, h => by
    rw [List.lookup_cons] at h
    by_cases hk : k == k'
    · simp only [hk] at h
      have : k = k' := by simpa using hk
      simp_all
    · simp only [hk] at h
      exact List.mem_cons_of_mem _ (mem_of_lookup h)

/-- A register of the map has a row. -/
theorem sfrAt_mem {a : DAddr} {r : Sfr} (h : sfrAt a = some r) : (a.toNat, r) ∈ sfrMap := mem_of_lookup h

/-- The pointer bytes stand where R50 says. -/
theorem sfrAt_fsrl {a : DAddr} {n : FsrIndex} : sfrAt a = some (.fsrl n) ↔ a = (fsrBytes n).1 := by
  refine ⟨fun h => BitVec.eq_of_toNat_eq ?_, fun h => by subst h; cases n <;> decide⟩
  have : ∀ p ∈ sfrMap, p.2 = .fsrl n → p.1 = (fsrBytes n).1.toNat := by cases n <;> decide
  exact this _ (sfrAt_mem h) rfl

/-- The pointer bytes stand where R50 says. -/
theorem sfrAt_fsrh {a : DAddr} {n : FsrIndex} : sfrAt a = some (.fsrh n) ↔ a = (fsrBytes n).2 := by
  refine ⟨fun h => BitVec.eq_of_toNat_eq ?_, fun h => by subst h; cases n <;> decide⟩
  have : ∀ p ∈ sfrMap, p.2 = .fsrh n → p.1 = (fsrBytes n).2.toNat := by cases n <;> decide
  exact this _ (sfrAt_mem h) rfl

/-- A window is a row of the map. -/
theorem windowAt_some {a : DAddr} {k : WindowKind} {n : FsrIndex} :
    windowAt a = some (k, n) ↔ sfrAt a = some (.window k n) := by
  unfold windowAt
  split <;> simp_all

/-- Every row of the map is above general-purpose RAM. -/
theorem gprTop_lt_of_sfrAt {a : DAddr} {r : Sfr} (h : sfrAt a = some r) : Config.gprTop < a.toNat := by
  have : ∀ p ∈ sfrMap, Config.gprTop < p.1 := by decide
  exact this _ (sfrAt_mem h)

/-- On the configured device every row of the map is a register. -/
theorem cellAt_of_sfrAt {a : DAddr} {r : Sfr} (h : sfrAt a = some r) : cellAt a = .sfr r := by
  have := gprTop_lt_of_sfrAt h
  have hn : ¬ a.toNat ≤ Config.gprTop := by omega
  simp [cellAt, hn, h, Config.hasPortDE]

/-- A cell that is a register is a row of the map. -/
theorem sfrAt_of_cellAt {a : DAddr} {r : Sfr} (h : cellAt a = .sfr r) : sfrAt a = some r := by
  unfold cellAt at h
  split at h
  · cases h
  · split at h
    · split at h
      · cases h
      · cases h; assumption
    · cases h

theorem cellAt_sfr {a : DAddr} {r : Sfr} : cellAt a = .sfr r ↔ sfrAt a = some r :=
  ⟨sfrAt_of_cellAt, cellAt_of_sfrAt⟩

/-- A register that has one row stands at that row's address. -/
theorem cellAt_unique {a : DAddr} {r : Sfr} (b : DAddr) (h : ∀ p ∈ sfrMap, p.2 = r → p.1 = b.toNat)
    (ha : cellAt a = .sfr r) : a = b :=
  BitVec.eq_of_toNat_eq (h _ (sfrAt_mem (sfrAt_of_cellAt ha)) rfl)

/-- RAM is plain RAM. -/
theorem cellAt_gpr {a : DAddr} : cellAt a = .gpr ↔ a.toNat ≤ Config.gprTop := by
  unfold cellAt
  split
  · simp_all
  · split
    · split <;> simp_all
    · simp_all

/-- TOSL, TOSH and TOSU stand at FFDh to FFFh. -/
theorem isTos_iff {a : DAddr} {r : Sfr} (h : cellAt a = .sfr r) :
    r.isTos = true ↔ a = 0xFFD#12 ∨ a = 0xFFE#12 ∨ a = 0xFFF#12 := by
  have hm := sfrAt_mem (sfrAt_of_cellAt h)
  have key : ∀ p ∈ sfrMap, (p.2.isTos = true ↔ p.1 = 0xFFD ∨ p.1 = 0xFFE ∨ p.1 = 0xFFF) := by decide
  rw [key _ hm]
  simp only [← BitVec.toNat_inj]
  rfl

/-! ### Resolution (R95) -/

/-- A resolved operand is no window (R97). -/
theorem windowAt_of_target {A : DAddr} {s : State} {a : DAddr} (h : target A s = some a) : windowAt a = none := by
  unfold target at h
  split at h
  · cases h; assumption
  · split at h
    · cases h; assumption
    · cases h

/-- The fault of R97 (b) and the condition without it are complements. -/
theorem ownFsrHit_eq_false {A : DAddr} {s : State} : ownFsrHit A s = false ↔ Resolvable A s := by
  unfold ownFsrHit Resolvable
  cases h : windowAt A with
  | none => simp
  | some p =>
    obtain ⟨k, n⟩ := p
    have hl := @sfrAt_fsrl (pointerTarget k n s) n
    have hh := @sfrAt_fsrh (pointerTarget k n s) n
    simp only [Option.some.injEq, Prod.mk.injEq, Bool.and_eq_false_iff, Bool.or_eq_false_iff, beq_eq_false_iff_ne,
      ne_eq, hl, hh]
    constructor
    · rintro h' k' n' ⟨rfl, rfl⟩ hk
      rcases h' with h' | h'
      · simp [hk] at h'
      · exact h'
    · intro h'
      cases hk : k.steps
      · exact .inl rfl
      · exact .inr (h' k n ⟨rfl, rfl⟩ hk)

/-- What `resolve` answers. -/
theorem resolve_ok_iff {A : DAddr} {s : State} {p : Target × State} :
    resolve A s = .ok p ↔ Resolvable A s ∧ p = (target A s, bump A s) := by
  unfold resolve
  rw [← ownFsrHit_eq_false]
  cases ownFsrHit A s <;> simp [eq_comm]

/-- The pointer modification is a write of one pointer, or nothing. -/
theorem bump_cases (A : DAddr) (s : State) :
    bump A s = s ∨ ∃ k n v, windowAt A = some (k, n) ∧ k.steps = true ∧ bump A s = s.setFsr n v := by
  unfold bump
  cases h : windowAt A with
  | none => exact .inl rfl
  | some p =>
    obtain ⟨k, n⟩ := p
    cases k
    · exact .inl rfl
    · exact .inr ⟨_, n, _, rfl, rfl, rfl⟩
    · exact .inr ⟨_, n, _, rfl, rfl, rfl⟩
    · exact .inr ⟨_, n, _, rfl, rfl, rfl⟩
    · exact .inl rfl

/-- A pointer that no stepping window of `A` names keeps its value. -/
theorem bump_fsr_other {A : DAddr} {s : State} {n : FsrIndex}
    (h : ∀ k, windowAt A = some (k, n) → k.steps = false) : (bump A s).fsr n = s.fsr n := by
  rcases bump_cases A s with hb | ⟨k, m, v, hw, hk, hb⟩
  · rw [hb]
  · rw [hb]
    by_cases hm : n = m
    · subst hm
      have := h k hw
      simp [hk] at this
    · exact State.fsr_setFsr_other _ _ _ _ hm

/-! ### Fields after the pointer modification -/

section
variable (A : DAddr) (s : State)

@[simp] theorem bump_pc : (bump A s).pc = s.pc := by
  rcases bump_cases A s with h | ⟨_, _, _, -, -, h⟩ <;> simp [h]
@[simp] theorem bump_pclath : (bump A s).pclath = s.pclath := by
  rcases bump_cases A s with h | ⟨_, _, _, -, -, h⟩ <;> simp [h]
@[simp] theorem bump_pclatu : (bump A s).pclatu = s.pclatu := by
  rcases bump_cases A s with h | ⟨_, _, _, -, -, h⟩ <;> simp [h]
@[simp] theorem bump_w : (bump A s).w = s.w := by
  rcases bump_cases A s with h | ⟨_, _, _, -, -, h⟩ <;> simp [h]
@[simp] theorem bump_status : (bump A s).status = s.status := by
  rcases bump_cases A s with h | ⟨_, _, _, -, -, h⟩ <;> simp [h]
@[simp] theorem bump_bsr : (bump A s).bsr = s.bsr := by
  rcases bump_cases A s with h | ⟨_, _, _, -, -, h⟩ <;> simp [h]
@[simp] theorem bump_prodh : (bump A s).prodh = s.prodh := by
  rcases bump_cases A s with h | ⟨_, _, _, -, -, h⟩ <;> simp [h]
@[simp] theorem bump_prodl : (bump A s).prodl = s.prodl := by
  rcases bump_cases A s with h | ⟨_, _, _, -, -, h⟩ <;> simp [h]
@[simp] theorem bump_tblptr : (bump A s).tblptr = s.tblptr := by
  rcases bump_cases A s with h | ⟨_, _, _, -, -, h⟩ <;> simp [h]
@[simp] theorem bump_tablat : (bump A s).tablat = s.tablat := by
  rcases bump_cases A s with h | ⟨_, _, _, -, -, h⟩ <;> simp [h]
@[simp] theorem bump_sp : (bump A s).sp = s.sp := by
  rcases bump_cases A s with h | ⟨_, _, _, -, -, h⟩ <;> simp [h]
@[simp] theorem bump_stkful : (bump A s).stkful = s.stkful := by
  rcases bump_cases A s with h | ⟨_, _, _, -, -, h⟩ <;> simp [h]
@[simp] theorem bump_stkunf : (bump A s).stkunf = s.stkunf := by
  rcases bump_cases A s with h | ⟨_, _, _, -, -, h⟩ <;> simp [h]
@[simp] theorem bump_stack : (bump A s).stack = s.stack := by
  rcases bump_cases A s with h | ⟨_, _, _, -, -, h⟩ <;> simp [h]
@[simp] theorem bump_fast : (bump A s).fast = s.fast := by
  rcases bump_cases A s with h | ⟨_, _, _, -, -, h⟩ <;> simp [h]
@[simp] theorem bump_hold : (bump A s).hold = s.hold := by
  rcases bump_cases A s with h | ⟨_, _, _, -, -, h⟩ <;> simp [h]
@[simp] theorem bump_intcon : (bump A s).intcon = s.intcon := by
  rcases bump_cases A s with h | ⟨_, _, _, -, -, h⟩ <;> simp [h]
@[simp] theorem bump_intcon2 : (bump A s).intcon2 = s.intcon2 := by
  rcases bump_cases A s with h | ⟨_, _, _, -, -, h⟩ <;> simp [h]
@[simp] theorem bump_intcon3 : (bump A s).intcon3 = s.intcon3 := by
  rcases bump_cases A s with h | ⟨_, _, _, -, -, h⟩ <;> simp [h]
@[simp] theorem bump_rcon : (bump A s).rcon = s.rcon := by
  rcases bump_cases A s with h | ⟨_, _, _, -, -, h⟩ <;> simp [h]
@[simp] theorem bump_pir1 : (bump A s).pir1 = s.pir1 := by
  rcases bump_cases A s with h | ⟨_, _, _, -, -, h⟩ <;> simp [h]
@[simp] theorem bump_pie1 : (bump A s).pie1 = s.pie1 := by
  rcases bump_cases A s with h | ⟨_, _, _, -, -, h⟩ <;> simp [h]
@[simp] theorem bump_ipr1 : (bump A s).ipr1 = s.ipr1 := by
  rcases bump_cases A s with h | ⟨_, _, _, -, -, h⟩ <;> simp [h]
@[simp] theorem bump_pir2 : (bump A s).pir2 = s.pir2 := by
  rcases bump_cases A s with h | ⟨_, _, _, -, -, h⟩ <;> simp [h]
@[simp] theorem bump_pie2 : (bump A s).pie2 = s.pie2 := by
  rcases bump_cases A s with h | ⟨_, _, _, -, -, h⟩ <;> simp [h]
@[simp] theorem bump_ipr2 : (bump A s).ipr2 = s.ipr2 := by
  rcases bump_cases A s with h | ⟨_, _, _, -, -, h⟩ <;> simp [h]
@[simp] theorem bump_isrLevel : (bump A s).isrLevel = s.isrLevel := by
  rcases bump_cases A s with h | ⟨_, _, _, -, -, h⟩ <;> simp [h]
@[simp] theorem bump_sleeping : (bump A s).sleeping = s.sleeping := by
  rcases bump_cases A s with h | ⟨_, _, _, -, -, h⟩ <;> simp [h]
@[simp] theorem bump_wdt : (bump A s).wdt = s.wdt := by
  rcases bump_cases A s with h | ⟨_, _, _, -, -, h⟩ <;> simp [h]
@[simp] theorem bump_flashWriteBusy : (bump A s).flashWriteBusy = s.flashWriteBusy := by
  rcases bump_cases A s with h | ⟨_, _, _, -, -, h⟩ <;> simp [h]
@[simp] theorem bump_data : (bump A s).data = s.data := by
  rcases bump_cases A s with h | ⟨_, _, _, -, -, h⟩ <;> simp [h]
@[simp] theorem bump_prog : (bump A s).prog = s.prog := by
  rcases bump_cases A s with h | ⟨_, _, _, -, -, h⟩ <;> simp [h]
@[simp] theorem bump_draws : (bump A s).draws = s.draws := by
  rcases bump_cases A s with h | ⟨_, _, _, -, -, h⟩ <;> simp [h]
@[simp] theorem bump_env : (bump A s).env = s.env := by
  rcases bump_cases A s with h | ⟨_, _, _, -, -, h⟩ <;> simp [h]

end

/-! ### Fields after a read -/

/-- What a read changes (R26, R63): the latches for PCL, the draw counter for a peripheral. -/
theorem readEffect_cases (T : Target) (s : State) :
    readEffect T s = s ∨
      (T = some 0xFF9#12 ∧
        readEffect T s =
          { s with pclath := (s.pc + 2#21).extractLsb' 8 8, pclatu := (s.pc + 2#21).extractLsb' 16 5 }) ∨
      (∃ a p, T = some a ∧ cellAt a = .sfr (.periph p) ∧ readEffect T s = { s with draws := s.draws + 1 }) := by
  cases T with
  | none => exact .inl rfl
  | some a =>
    unfold readEffect
    dsimp only
    split
    · rename_i h
      exact .inr (.inl ⟨by rw [cellAt_unique 0xFF9#12 (by decide) h], rfl⟩)
    · rename_i p h
      exact .inr (.inr ⟨a, p, rfl, h, rfl⟩)
    · exact .inl rfl

section
variable (T : Target) (s : State)

@[simp] theorem readEffect_pc : (readEffect T s).pc = s.pc := by
  rcases readEffect_cases T s with h | ⟨-, h⟩ | ⟨_, _, -, -, h⟩ <;> rw [h]
@[simp] theorem readEffect_w : (readEffect T s).w = s.w := by
  rcases readEffect_cases T s with h | ⟨-, h⟩ | ⟨_, _, -, -, h⟩ <;> rw [h]
@[simp] theorem readEffect_status : (readEffect T s).status = s.status := by
  rcases readEffect_cases T s with h | ⟨-, h⟩ | ⟨_, _, -, -, h⟩ <;> rw [h]
@[simp] theorem readEffect_bsr : (readEffect T s).bsr = s.bsr := by
  rcases readEffect_cases T s with h | ⟨-, h⟩ | ⟨_, _, -, -, h⟩ <;> rw [h]
@[simp] theorem readEffect_fsr0 : (readEffect T s).fsr0 = s.fsr0 := by
  rcases readEffect_cases T s with h | ⟨-, h⟩ | ⟨_, _, -, -, h⟩ <;> rw [h]
@[simp] theorem readEffect_fsr1 : (readEffect T s).fsr1 = s.fsr1 := by
  rcases readEffect_cases T s with h | ⟨-, h⟩ | ⟨_, _, -, -, h⟩ <;> rw [h]
@[simp] theorem readEffect_fsr2 : (readEffect T s).fsr2 = s.fsr2 := by
  rcases readEffect_cases T s with h | ⟨-, h⟩ | ⟨_, _, -, -, h⟩ <;> rw [h]
@[simp] theorem readEffect_prodh : (readEffect T s).prodh = s.prodh := by
  rcases readEffect_cases T s with h | ⟨-, h⟩ | ⟨_, _, -, -, h⟩ <;> rw [h]
@[simp] theorem readEffect_prodl : (readEffect T s).prodl = s.prodl := by
  rcases readEffect_cases T s with h | ⟨-, h⟩ | ⟨_, _, -, -, h⟩ <;> rw [h]
@[simp] theorem readEffect_tblptr : (readEffect T s).tblptr = s.tblptr := by
  rcases readEffect_cases T s with h | ⟨-, h⟩ | ⟨_, _, -, -, h⟩ <;> rw [h]
@[simp] theorem readEffect_tablat : (readEffect T s).tablat = s.tablat := by
  rcases readEffect_cases T s with h | ⟨-, h⟩ | ⟨_, _, -, -, h⟩ <;> rw [h]
@[simp] theorem readEffect_sp : (readEffect T s).sp = s.sp := by
  rcases readEffect_cases T s with h | ⟨-, h⟩ | ⟨_, _, -, -, h⟩ <;> rw [h]
@[simp] theorem readEffect_stkful : (readEffect T s).stkful = s.stkful := by
  rcases readEffect_cases T s with h | ⟨-, h⟩ | ⟨_, _, -, -, h⟩ <;> rw [h]
@[simp] theorem readEffect_stkunf : (readEffect T s).stkunf = s.stkunf := by
  rcases readEffect_cases T s with h | ⟨-, h⟩ | ⟨_, _, -, -, h⟩ <;> rw [h]
@[simp] theorem readEffect_stack : (readEffect T s).stack = s.stack := by
  rcases readEffect_cases T s with h | ⟨-, h⟩ | ⟨_, _, -, -, h⟩ <;> rw [h]
@[simp] theorem readEffect_fast : (readEffect T s).fast = s.fast := by
  rcases readEffect_cases T s with h | ⟨-, h⟩ | ⟨_, _, -, -, h⟩ <;> rw [h]
@[simp] theorem readEffect_hold : (readEffect T s).hold = s.hold := by
  rcases readEffect_cases T s with h | ⟨-, h⟩ | ⟨_, _, -, -, h⟩ <;> rw [h]
@[simp] theorem readEffect_intcon : (readEffect T s).intcon = s.intcon := by
  rcases readEffect_cases T s with h | ⟨-, h⟩ | ⟨_, _, -, -, h⟩ <;> rw [h]
@[simp] theorem readEffect_intcon2 : (readEffect T s).intcon2 = s.intcon2 := by
  rcases readEffect_cases T s with h | ⟨-, h⟩ | ⟨_, _, -, -, h⟩ <;> rw [h]
@[simp] theorem readEffect_intcon3 : (readEffect T s).intcon3 = s.intcon3 := by
  rcases readEffect_cases T s with h | ⟨-, h⟩ | ⟨_, _, -, -, h⟩ <;> rw [h]
@[simp] theorem readEffect_rcon : (readEffect T s).rcon = s.rcon := by
  rcases readEffect_cases T s with h | ⟨-, h⟩ | ⟨_, _, -, -, h⟩ <;> rw [h]
@[simp] theorem readEffect_pir1 : (readEffect T s).pir1 = s.pir1 := by
  rcases readEffect_cases T s with h | ⟨-, h⟩ | ⟨_, _, -, -, h⟩ <;> rw [h]
@[simp] theorem readEffect_pie1 : (readEffect T s).pie1 = s.pie1 := by
  rcases readEffect_cases T s with h | ⟨-, h⟩ | ⟨_, _, -, -, h⟩ <;> rw [h]
@[simp] theorem readEffect_ipr1 : (readEffect T s).ipr1 = s.ipr1 := by
  rcases readEffect_cases T s with h | ⟨-, h⟩ | ⟨_, _, -, -, h⟩ <;> rw [h]
@[simp] theorem readEffect_pir2 : (readEffect T s).pir2 = s.pir2 := by
  rcases readEffect_cases T s with h | ⟨-, h⟩ | ⟨_, _, -, -, h⟩ <;> rw [h]
@[simp] theorem readEffect_pie2 : (readEffect T s).pie2 = s.pie2 := by
  rcases readEffect_cases T s with h | ⟨-, h⟩ | ⟨_, _, -, -, h⟩ <;> rw [h]
@[simp] theorem readEffect_ipr2 : (readEffect T s).ipr2 = s.ipr2 := by
  rcases readEffect_cases T s with h | ⟨-, h⟩ | ⟨_, _, -, -, h⟩ <;> rw [h]
@[simp] theorem readEffect_isrLevel : (readEffect T s).isrLevel = s.isrLevel := by
  rcases readEffect_cases T s with h | ⟨-, h⟩ | ⟨_, _, -, -, h⟩ <;> rw [h]
@[simp] theorem readEffect_sleeping : (readEffect T s).sleeping = s.sleeping := by
  rcases readEffect_cases T s with h | ⟨-, h⟩ | ⟨_, _, -, -, h⟩ <;> rw [h]
@[simp] theorem readEffect_wdt : (readEffect T s).wdt = s.wdt := by
  rcases readEffect_cases T s with h | ⟨-, h⟩ | ⟨_, _, -, -, h⟩ <;> rw [h]
@[simp] theorem readEffect_flashWriteBusy : (readEffect T s).flashWriteBusy = s.flashWriteBusy := by
  rcases readEffect_cases T s with h | ⟨-, h⟩ | ⟨_, _, -, -, h⟩ <;> rw [h]
@[simp] theorem readEffect_data : (readEffect T s).data = s.data := by
  rcases readEffect_cases T s with h | ⟨-, h⟩ | ⟨_, _, -, -, h⟩ <;> rw [h]
@[simp] theorem readEffect_prog : (readEffect T s).prog = s.prog := by
  rcases readEffect_cases T s with h | ⟨-, h⟩ | ⟨_, _, -, -, h⟩ <;> rw [h]
@[simp] theorem readEffect_env : (readEffect T s).env = s.env := by
  rcases readEffect_cases T s with h | ⟨-, h⟩ | ⟨_, _, -, -, h⟩ <;> rw [h]

end

section
variable (A : DAddr) (s : State)

@[simp] theorem afterRead_pc : (afterRead A s).pc = s.pc := by simp [afterRead]
@[simp] theorem afterRead_w : (afterRead A s).w = s.w := by simp [afterRead]
@[simp] theorem afterRead_status : (afterRead A s).status = s.status := by simp [afterRead]
@[simp] theorem afterRead_bsr : (afterRead A s).bsr = s.bsr := by simp [afterRead]
@[simp] theorem afterRead_prodh : (afterRead A s).prodh = s.prodh := by simp [afterRead]
@[simp] theorem afterRead_prodl : (afterRead A s).prodl = s.prodl := by simp [afterRead]
@[simp] theorem afterRead_tblptr : (afterRead A s).tblptr = s.tblptr := by simp [afterRead]
@[simp] theorem afterRead_tablat : (afterRead A s).tablat = s.tablat := by simp [afterRead]
@[simp] theorem afterRead_sp : (afterRead A s).sp = s.sp := by simp [afterRead]
@[simp] theorem afterRead_stkful : (afterRead A s).stkful = s.stkful := by simp [afterRead]
@[simp] theorem afterRead_stkunf : (afterRead A s).stkunf = s.stkunf := by simp [afterRead]
@[simp] theorem afterRead_stack : (afterRead A s).stack = s.stack := by simp [afterRead]
@[simp] theorem afterRead_fast : (afterRead A s).fast = s.fast := by simp [afterRead]
@[simp] theorem afterRead_hold : (afterRead A s).hold = s.hold := by simp [afterRead]
@[simp] theorem afterRead_intcon : (afterRead A s).intcon = s.intcon := by simp [afterRead]
@[simp] theorem afterRead_intcon2 : (afterRead A s).intcon2 = s.intcon2 := by simp [afterRead]
@[simp] theorem afterRead_intcon3 : (afterRead A s).intcon3 = s.intcon3 := by simp [afterRead]
@[simp] theorem afterRead_rcon : (afterRead A s).rcon = s.rcon := by simp [afterRead]
@[simp] theorem afterRead_pir1 : (afterRead A s).pir1 = s.pir1 := by simp [afterRead]
@[simp] theorem afterRead_pie1 : (afterRead A s).pie1 = s.pie1 := by simp [afterRead]
@[simp] theorem afterRead_ipr1 : (afterRead A s).ipr1 = s.ipr1 := by simp [afterRead]
@[simp] theorem afterRead_pir2 : (afterRead A s).pir2 = s.pir2 := by simp [afterRead]
@[simp] theorem afterRead_pie2 : (afterRead A s).pie2 = s.pie2 := by simp [afterRead]
@[simp] theorem afterRead_ipr2 : (afterRead A s).ipr2 = s.ipr2 := by simp [afterRead]
@[simp] theorem afterRead_isrLevel : (afterRead A s).isrLevel = s.isrLevel := by simp [afterRead]
@[simp] theorem afterRead_sleeping : (afterRead A s).sleeping = s.sleeping := by simp [afterRead]
@[simp] theorem afterRead_wdt : (afterRead A s).wdt = s.wdt := by simp [afterRead]
@[simp] theorem afterRead_flashWriteBusy : (afterRead A s).flashWriteBusy = s.flashWriteBusy := by simp [afterRead]
@[simp] theorem afterRead_data : (afterRead A s).data = s.data := by simp [afterRead]
@[simp] theorem afterRead_prog : (afterRead A s).prog = s.prog := by simp [afterRead]
@[simp] theorem afterRead_env : (afterRead A s).env = s.env := by simp [afterRead]

end

/-- Reading leaves the pointers where resolution put them. -/
@[simp] theorem readEffect_fsr (T : Target) (s : State) (n : FsrIndex) : (readEffect T s).fsr n = s.fsr n := by
  cases n <;> simp [State.fsr]

/-! ### Reading an operand (R159) -/

/-- The read fault: exactly a top-of-stack register with the stack empty (R42). -/
theorem readFault_eq (T : Target) (s : State) :
    readFault T s = if T ∈ tosTargets ∧ s.sp = 0#5 then some .stackEmptyAccess else none := by
  cases T with
  | none => simp [readFault, tosTargets]
  | some a =>
    have hmem : (some a : Target) ∈ tosTargets ↔ a = 0xFFD#12 ∨ a = 0xFFE#12 ∨ a = 0xFFF#12 := by simp [tosTargets]
    unfold readFault
    dsimp only
    split
    · rename_i r h
      simp only [hmem, ← isTos_iff h]
      cases r.isTos <;> simp
    · rename_i h
      have hn : ¬ (a = 0xFFD#12 ∨ a = 0xFFE#12 ∨ a = 0xFFF#12) := by
        rintro (rfl | rfl | rfl)
        · exact h .tosl (cellAt_of_sfrAt (by decide))
        · exact h .tosh (cellAt_of_sfrAt (by decide))
        · exact h .tosu (cellAt_of_sfrAt (by decide))
      simp [hmem, hn]

/-- What reading an operand answers. -/
theorem readOperand_ok_iff {A : DAddr} {s : State} {p : Target × Byte × State} :
    readOperand A s = .ok p ↔ Readable A s ∧ p = (target A s, operand A s, afterRead A s) := by
  unfold readOperand Readable
  cases hr : resolve A s with
  | error e =>
    have : ¬ Resolvable A s := fun h => by
      have := resolve_ok_iff.2 ⟨h, rfl⟩
      rw [hr] at this
      cases this
    simp [this]
  | ok q =>
    obtain ⟨h1, rfl⟩ := resolve_ok_iff.1 hr
    simp only [readData, readFault_eq, bump_sp]
    by_cases h : target A s ∈ tosTargets ∧ s.sp = 0#5
    · simp [h]
    · rw [if_neg h]
      have h' : target A s ∈ tosTargets → s.sp ≠ 0#5 := fun a b => h ⟨a, b⟩
      constructor
      · intro he
        cases he
        exact ⟨⟨h1, h'⟩, rfl⟩
      · rintro ⟨-, rfl⟩
        rfl

/-- Why reading an operand stops (R97, R42). -/
theorem readOperand_error_iff {A : DAddr} {s : State} {e : Fault} :
    readOperand A s = .error e ↔
      (¬ Resolvable A s ∧ e = .indirectOnOwnFSR) ∨
      (Resolvable A s ∧ target A s ∈ tosTargets ∧ s.sp = 0#5 ∧ e = .stackEmptyAccess) := by
  unfold readOperand resolve
  by_cases hr : Resolvable A s
  · rw [ownFsrHit_eq_false.2 hr]
    simp only [Bool.false_eq_true, if_false, readData, readFault_eq, bump_sp]
    by_cases h : target A s ∈ tosTargets ∧ s.sp = 0#5
    · simp [h, hr, eq_comm]
    · rw [if_neg h]
      simp only [reduceCtorEq, hr, not_true, false_and, true_and, false_or, false_iff]
      exact fun h' => h ⟨h'.1, h'.2.1⟩
  · have : ownFsrHit A s = true := by
      cases ho : ownFsrHit A s
      · exact absurd (ownFsrHit_eq_false.1 ho) hr
      · rfl
    rw [this]
    simp only [if_true, hr, not_false_iff, true_and, false_and, or_false, Except.error.injEq]
    exact eq_comm

/-! ### Writing an operand (R91, R98) -/

/-- The write fault: EECON2 (R107), or a top-of-stack register with the stack empty (R42). -/
theorem writeFault_eq (T : Target) (s : State) :
    writeFault T s =
      if T = some 0xFA7#12 then some .selfProgramming
      else if T ∈ tosTargets ∧ s.sp = 0#5 then some .stackEmptyAccess else none := by
  have hr := readFault_eq T s
  cases T with
  | none => simp [writeFault, tosTargets]
  | some a =>
    unfold writeFault
    unfold readFault at hr
    dsimp only at hr ⊢
    split
    · rename_i h
      rw [if_pos (congrArg some (cellAt_unique 0xFA7#12 (by decide) h))]
    · rename_i r hne h
      have hn : (some a : Target) ≠ some 0xFA7#12 := by
        intro e
        injection e with e
        subst e
        have hc : cellAt 0xFA7#12 = .sfr (.periph .eecon2) := cellAt_of_sfrAt (by decide)
        rw [hc] at h
        injection h with h
        exact hne h.symm
      rw [if_neg hn, ← hr]
      simp [h]
    · rename_i h1 h2
      have hn : (some a : Target) ≠ some 0xFA7#12 := by
        intro e
        injection e with e
        subst e
        exact h2 (.periph .eecon2) (cellAt_of_sfrAt (by decide))
      rw [if_neg hn, ← hr]
      split
      · rename_i r h
        exact absurd h (h2 r)
      · rfl

/-- A target that can be written: it is not EECON2, and not the top of an empty stack. -/
def TargetOk (T : Target) (s : State) : Prop := T ≠ some 0xFA7#12 ∧ (T ∈ tosTargets → s.sp ≠ 0#5)

theorem writeFault_none_iff {T : Target} {s : State} : writeFault T s = none ↔ TargetOk T s := by
  rw [writeFault_eq]
  unfold TargetOk
  by_cases h1 : T = some 0xFA7#12
  · rw [if_pos h1]
    exact ⟨fun h => (by cases h), fun h => absurd h1 h.1⟩
  · rw [if_neg h1]
    by_cases h2 : T ∈ tosTargets ∧ s.sp = 0#5
    · rw [if_pos h2]
      exact ⟨fun h => (by cases h), fun h => absurd h2.2 (h.2 h2.1)⟩
    · rw [if_neg h2]
      exact ⟨fun _ => ⟨h1, fun a b => h2 ⟨a, b⟩⟩, fun _ => rfl⟩

/-- What writing an operand answers. -/
theorem writeData_ok_iff {T : Target} {v : Byte} {s t : State} :
    writeData T v s = .ok t ↔ TargetOk T s ∧ t = poke T v s := by
  rw [← writeFault_none_iff]
  unfold writeData
  cases writeFault T s <;> simp [eq_comm]

/-- STATUS can always be written. -/
theorem targetOk_status (s : State) : TargetOk (some 0xFD8#12) s := by
  refine ⟨by decide, fun h => absurd h (by decide)⟩

/-- What `writeF` answers. -/
theorem writeF_ok_iff {affects : Bool} {T : Target} {v : Byte} {s t : State} :
    writeF affects T v s = .ok t ↔ TargetOk T s ∧ t = written true affects T v s := by
  unfold writeF written
  rw [if_pos rfl]
  cases hS : (affects && T == some 0xFD8#12)
  · exact writeData_ok_iff
  · have hT : T = some 0xFD8#12 := by simp only [Bool.and_eq_true, beq_iff_eq] at hS; exact hS.2
    subst hT
    rw [if_pos rfl, if_pos rfl]
    refine ⟨fun h => ⟨targetOk_status s, ?_⟩, fun h => ?_⟩
    · injection h with h; exact h.symm
    · rw [h.2]

/-- What `writedest` answers. -/
theorem writeDest_ok_iff {d affects : Bool} {T : Target} {r : Byte} {s t : State} :
    writeDest d affects T r s = .ok t ↔ (d = true → TargetOk T s) ∧ t = written d affects T r s := by
  unfold writeDest
  cases d
  · simp [written, eq_comm]
  · simp only [if_true, true_implies, writeF_ok_iff]

/-! ### The instruction templates (R159) -/

/-- Resolving and reading leave what decides whether a target can be written. -/
theorem targetOk_afterRead {A : DAddr} {T : Target} {s : State} {n : Nat} :
    TargetOk T ((afterRead A s).advance n) ↔ TargetOk T s := by
  simp [TargetOk]

/-- The template of every instruction that reads `f` and stores a result: when it completes, and in which state. -/
theorem fileOp_ok_iff {f : Byte} {d a : Bool} {alu : Byte → Byte → Status → Byte × FlagWrite} {skips : Byte → Bool}
    {s t : State} :
    fileOp f d a alu skips s = .ok t ↔
      FileOk f d a s ∧
        t =
          (let out := alu (operand (ea f a s) s) s.w s.status
           let u := stored d (target (ea f a s) s) out.1 out.2 ((afterRead (ea f a s) s).advance 2)
           if skips out.1 then u.jump (s.pc + 4#21) else u) := by
  unfold fileOp FileOk Writable
  cases hr : readOperand (ea f a s) s with
  | error e =>
    have hn : ¬ Readable (ea f a s) s := fun h => by
      have := readOperand_ok_iff.2 ⟨h, rfl⟩
      rw [hr] at this
      cases this
    simp [hn]
  | ok p =>
    obtain ⟨hread, rfl⟩ := readOperand_ok_iff.1 hr
    dsimp only
    rw [afterRead_w, afterRead_status, afterRead_pc]
    cases hw : writeDest d (alu (operand (ea f a s) s) s.w s.status).2.affects (target (ea f a s) s)
        (alu (operand (ea f a s) s) s.w s.status).1 ((afterRead (ea f a s) s).advance 2) with
    | error e =>
      have hn : ¬ (d = true → Readable (ea f a s) s ∧ target (ea f a s) s ≠ some 0xFA7#12) := fun h => by
        have := hw.symm.trans (writeDest_ok_iff.2 ⟨fun hd => targetOk_afterRead.2 ⟨(h hd).2, hread.2⟩, rfl⟩)
        cases this
      exact ⟨fun h => (by cases h), fun h => absurd h.1.2 hn⟩
    | ok s2 =>
      obtain ⟨h1, rfl⟩ := writeDest_ok_iff.1 hw
      have hwr : d = true → Readable (ea f a s) s ∧ target (ea f a s) s ≠ some 0xFA7#12 :=
        fun hd => ⟨hread, (h1 hd).1⟩
      constructor
      · intro h; injection h with h; exact ⟨⟨hread, hwr⟩, h.symm⟩
      · rintro ⟨-, rfl⟩; rfl

/-- The template of every instruction that stores without reading. -/
theorem fileStore_ok_iff {f : Byte} {a : Bool} {v : Byte} {fw : FlagWrite} {s t : State} :
    fileStore f a v fw s = .ok t ↔
      Writable (ea f a s) s ∧ t = stored true (target (ea f a s) s) v fw ((bump (ea f a s) s).advance 2) := by
  unfold fileStore Writable Readable
  cases hr : resolve (ea f a s) s with
  | error e =>
    have hn : ¬ Resolvable (ea f a s) s := fun h => by
      have := resolve_ok_iff.2 ⟨h, rfl⟩
      rw [hr] at this
      cases this
    simp [hn]
  | ok p =>
    obtain ⟨hres, rfl⟩ := resolve_ok_iff.1 hr
    dsimp only
    have hT : TargetOk (target (ea f a s) s) ((bump (ea f a s) s).advance 2) ↔ TargetOk (target (ea f a s) s) s := by
      simp [TargetOk]
    cases hw : writeF fw.affects (target (ea f a s) s) v ((bump (ea f a s) s).advance 2) with
    | error e =>
      have hn : ¬ TargetOk (target (ea f a s) s) s := fun h => by
        have := hw.symm.trans (writeF_ok_iff.2 ⟨hT.2 h, rfl⟩)
        cases this
      exact ⟨fun h => (by cases h), fun h => absurd ⟨h.1.2, h.1.1.2⟩ hn⟩
    | ok s2 =>
      obtain ⟨h1, rfl⟩ := writeF_ok_iff.1 hw
      have h1 := hT.1 h1
      constructor
      · intro h; injection h with h; exact ⟨⟨⟨hres, h1.2⟩, h1.1⟩, h.symm⟩
      · rintro ⟨-, rfl⟩; rfl

/-- The template of every instruction that reads and may skip. -/
theorem fileTest_ok_iff {f : Byte} {a : Bool} {test : Byte → Byte → Bool} {s t : State} :
    fileTest f a test s = .ok t ↔
      Readable (ea f a s) s ∧
        t = (afterRead (ea f a s) s).advance (if test (operand (ea f a s) s) s.w then 4 else 2) := by
  unfold fileTest
  cases hr : readOperand (ea f a s) s with
  | error e =>
    have hn : ¬ Readable (ea f a s) s := fun h => by
      have := readOperand_ok_iff.2 ⟨h, rfl⟩
      rw [hr] at this
      cases this
    simp [hn]
  | ok p =>
    obtain ⟨hread, rfl⟩ := readOperand_ok_iff.1 hr
    dsimp only
    rw [afterRead_w]
    constructor
    · intro h; injection h with h; exact ⟨hread, h.symm⟩
    · rintro ⟨-, rfl⟩; rfl

/-- A fault commits nothing: an outcome is a next state exactly when its operation succeeded (R311). -/
theorem outcome_next_iff {x : Except Fault State} {t : State} : outcome x = .next t ↔ x = .ok t := by
  cases x <;> simp [outcome]

theorem outcome_fault_iff {x : Except Fault State} {e : Fault} : outcome x = .fault e ↔ x = .error e := by
  cases x <;> simp [outcome]

/-- An operation's outcome is never a refusal. -/
theorem outcome_ne_refused {x : Except Fault State} {r : Refusal} : outcome x ≠ .refused r := by
  cases x <;> simp [outcome]

end Sys2Proof.Machine
end

