-- ==== Sys2Proof/Laws/Writes.lean ====
section
/-! SUPPORT. What a data write changes: for each field, at which addresses a write can change it. -/

namespace Sys2Proof.Machine

variable {T : Target} {v : Byte} {s : State}

/-- A write is nothing, a byte of RAM, or a register. -/
theorem poke_cases (T : Target) (v : Byte) (s : State) :
    poke T v s = s ∨ (∃ a, T = some a ∧ cellAt a = .gpr ∧ poke T v s = s.setRam a v) ∨
      (∃ a r, T = some a ∧ cellAt a = .sfr r ∧ poke T v s = pokeSfr r a v s) := by
  cases T with
  | none => exact .inl rfl
  | some a =>
    cases h : cellAt a with
    | gpr => exact .inr (.inl ⟨a, rfl, h, by simp [poke, h]⟩)
    | sfr r => exact .inr (.inr ⟨a, r, rfl, h, by simp [poke, h]⟩)
    | unimplemented => exact .inl (by simp [poke, h])

/-! ### Fields no data write reaches -/

@[simp] theorem poke_stkful (T : Target) (v : Byte) (s : State) : (poke T v s).stkful = s.stkful := by
  rcases poke_cases T v s with h | ⟨a, -, -, h⟩ | ⟨a, r, -, -, h⟩ <;> rw [h]
  · rfl
  · cases r <;> first | rfl | simp [pokeSfr]

@[simp] theorem poke_stkunf (T : Target) (v : Byte) (s : State) : (poke T v s).stkunf = s.stkunf := by
  rcases poke_cases T v s with h | ⟨a, -, -, h⟩ | ⟨a, r, -, -, h⟩ <;> rw [h]
  · rfl
  · cases r <;> first | rfl | simp [pokeSfr]

@[simp] theorem poke_fast (T : Target) (v : Byte) (s : State) : (poke T v s).fast = s.fast := by
  rcases poke_cases T v s with h | ⟨a, -, -, h⟩ | ⟨a, r, -, -, h⟩ <;> rw [h]
  · rfl
  · cases r <;> first | rfl | simp [pokeSfr]

@[simp] theorem poke_hold (T : Target) (v : Byte) (s : State) : (poke T v s).hold = s.hold := by
  rcases poke_cases T v s with h | ⟨a, -, -, h⟩ | ⟨a, r, -, -, h⟩ <;> rw [h]
  · rfl
  · cases r <;> first | rfl | simp [pokeSfr]

@[simp] theorem poke_isrLevel (T : Target) (v : Byte) (s : State) : (poke T v s).isrLevel = s.isrLevel := by
  rcases poke_cases T v s with h | ⟨a, -, -, h⟩ | ⟨a, r, -, -, h⟩ <;> rw [h]
  · rfl
  · cases r <;> first | rfl | simp [pokeSfr]

@[simp] theorem poke_sleeping (T : Target) (v : Byte) (s : State) : (poke T v s).sleeping = s.sleeping := by
  rcases poke_cases T v s with h | ⟨a, -, -, h⟩ | ⟨a, r, -, -, h⟩ <;> rw [h]
  · rfl
  · cases r <;> first | rfl | simp [pokeSfr]

@[simp] theorem poke_wdt (T : Target) (v : Byte) (s : State) : (poke T v s).wdt = s.wdt := by
  rcases poke_cases T v s with h | ⟨a, -, -, h⟩ | ⟨a, r, -, -, h⟩ <;> rw [h]
  · rfl
  · cases r <;> first | rfl | simp [pokeSfr]

@[simp] theorem poke_flashWriteBusy (T : Target) (v : Byte) (s : State) : (poke T v s).flashWriteBusy = s.flashWriteBusy := by
  rcases poke_cases T v s with h | ⟨a, -, -, h⟩ | ⟨a, r, -, -, h⟩ <;> rw [h]
  · rfl
  · cases r <;> first | rfl | simp [pokeSfr]

@[simp] theorem poke_prog (T : Target) (v : Byte) (s : State) : (poke T v s).prog = s.prog := by
  rcases poke_cases T v s with h | ⟨a, -, -, h⟩ | ⟨a, r, -, -, h⟩ <;> rw [h]
  · rfl
  · cases r <;> first | rfl | simp [pokeSfr]

@[simp] theorem poke_draws (T : Target) (v : Byte) (s : State) : (poke T v s).draws = s.draws := by
  rcases poke_cases T v s with h | ⟨a, -, -, h⟩ | ⟨a, r, -, -, h⟩ <;> rw [h]
  · rfl
  · cases r <;> first | rfl | simp [pokeSfr]

@[simp] theorem poke_env (T : Target) (v : Byte) (s : State) : (poke T v s).env = s.env := by
  rcases poke_cases T v s with h | ⟨a, -, -, h⟩ | ⟨a, r, -, -, h⟩ <;> rw [h]
  · rfl
  · cases r <;> first | rfl | simp [pokeSfr]

/-! ### Fields with one address -/

theorem poke_pc (h : T ≠ some 0xFF9#12) : (poke T v s).pc = s.pc := by
  rcases poke_cases T v s with hp | ⟨a, -, -, hp⟩ | ⟨a, r, rfl, hc, hp⟩ <;> rw [hp]
  · rfl
  · have hr : r ≠ .pcl := fun e => h (congrArg some (cellAt_unique 0xFF9#12 (by decide) (e ▸ hc)))
    cases r <;> first | rfl | exact absurd rfl hr | simp [pokeSfr]

theorem poke_pclath (h : T ≠ some 0xFFA#12) : (poke T v s).pclath = s.pclath := by
  rcases poke_cases T v s with hp | ⟨a, -, -, hp⟩ | ⟨a, r, rfl, hc, hp⟩ <;> rw [hp]
  · rfl
  · have hr : r ≠ .pclath := fun e => h (congrArg some (cellAt_unique 0xFFA#12 (by decide) (e ▸ hc)))
    cases r <;> first | rfl | exact absurd rfl hr | simp [pokeSfr]

theorem poke_pclatu (h : T ≠ some 0xFFB#12) : (poke T v s).pclatu = s.pclatu := by
  rcases poke_cases T v s with hp | ⟨a, -, -, hp⟩ | ⟨a, r, rfl, hc, hp⟩ <;> rw [hp]
  · rfl
  · have hr : r ≠ .pclatu := fun e => h (congrArg some (cellAt_unique 0xFFB#12 (by decide) (e ▸ hc)))
    cases r <;> first | rfl | exact absurd rfl hr | simp [pokeSfr]

theorem poke_w (h : T ≠ some 0xFE8#12) : (poke T v s).w = s.w := by
  rcases poke_cases T v s with hp | ⟨a, -, -, hp⟩ | ⟨a, r, rfl, hc, hp⟩ <;> rw [hp]
  · rfl
  · have hr : r ≠ .wreg := fun e => h (congrArg some (cellAt_unique 0xFE8#12 (by decide) (e ▸ hc)))
    cases r <;> first | rfl | exact absurd rfl hr | simp [pokeSfr]

theorem poke_status (h : T ≠ some 0xFD8#12) : (poke T v s).status = s.status := by
  rcases poke_cases T v s with hp | ⟨a, -, -, hp⟩ | ⟨a, r, rfl, hc, hp⟩ <;> rw [hp]
  · rfl
  · have hr : r ≠ .status := fun e => h (congrArg some (cellAt_unique 0xFD8#12 (by decide) (e ▸ hc)))
    cases r <;> first | rfl | exact absurd rfl hr | simp [pokeSfr]

theorem poke_bsr (h : T ≠ some 0xFE0#12) : (poke T v s).bsr = s.bsr := by
  rcases poke_cases T v s with hp | ⟨a, -, -, hp⟩ | ⟨a, r, rfl, hc, hp⟩ <;> rw [hp]
  · rfl
  · have hr : r ≠ .bsr := fun e => h (congrArg some (cellAt_unique 0xFE0#12 (by decide) (e ▸ hc)))
    cases r <;> first | rfl | exact absurd rfl hr | simp [pokeSfr]

theorem poke_prodh (h : T ≠ some 0xFF4#12) : (poke T v s).prodh = s.prodh := by
  rcases poke_cases T v s with hp | ⟨a, -, -, hp⟩ | ⟨a, r, rfl, hc, hp⟩ <;> rw [hp]
  · rfl
  · have hr : r ≠ .prodh := fun e => h (congrArg some (cellAt_unique 0xFF4#12 (by decide) (e ▸ hc)))
    cases r <;> first | rfl | exact absurd rfl hr | simp [pokeSfr]

theorem poke_prodl (h : T ≠ some 0xFF3#12) : (poke T v s).prodl = s.prodl := by
  rcases poke_cases T v s with hp | ⟨a, -, -, hp⟩ | ⟨a, r, rfl, hc, hp⟩ <;> rw [hp]
  · rfl
  · have hr : r ≠ .prodl := fun e => h (congrArg some (cellAt_unique 0xFF3#12 (by decide) (e ▸ hc)))
    cases r <;> first | rfl | exact absurd rfl hr | simp [pokeSfr]

theorem poke_tablat (h : T ≠ some 0xFF5#12) : (poke T v s).tablat = s.tablat := by
  rcases poke_cases T v s with hp | ⟨a, -, -, hp⟩ | ⟨a, r, rfl, hc, hp⟩ <;> rw [hp]
  · rfl
  · have hr : r ≠ .tablat := fun e => h (congrArg some (cellAt_unique 0xFF5#12 (by decide) (e ▸ hc)))
    cases r <;> first | rfl | exact absurd rfl hr | simp [pokeSfr]

theorem poke_sp (h : T ≠ some 0xFFC#12) : (poke T v s).sp = s.sp := by
  rcases poke_cases T v s with hp | ⟨a, -, -, hp⟩ | ⟨a, r, rfl, hc, hp⟩ <;> rw [hp]
  · rfl
  · have hr : r ≠ .stkptr := fun e => h (congrArg some (cellAt_unique 0xFFC#12 (by decide) (e ▸ hc)))
    cases r <;> first | rfl | exact absurd rfl hr | simp [pokeSfr]

theorem poke_intcon (h : T ≠ some 0xFF2#12) : (poke T v s).intcon = s.intcon := by
  rcases poke_cases T v s with hp | ⟨a, -, -, hp⟩ | ⟨a, r, rfl, hc, hp⟩ <;> rw [hp]
  · rfl
  · have hr : r ≠ .intcon := fun e => h (congrArg some (cellAt_unique 0xFF2#12 (by decide) (e ▸ hc)))
    cases r <;> first | rfl | exact absurd rfl hr | simp [pokeSfr]

theorem poke_intcon2 (h : T ≠ some 0xFF1#12) : (poke T v s).intcon2 = s.intcon2 := by
  rcases poke_cases T v s with hp | ⟨a, -, -, hp⟩ | ⟨a, r, rfl, hc, hp⟩ <;> rw [hp]
  · rfl
  · have hr : r ≠ .intcon2 := fun e => h (congrArg some (cellAt_unique 0xFF1#12 (by decide) (e ▸ hc)))
    cases r <;> first | rfl | exact absurd rfl hr | simp [pokeSfr]

theorem poke_intcon3 (h : T ≠ some 0xFF0#12) : (poke T v s).intcon3 = s.intcon3 := by
  rcases poke_cases T v s with hp | ⟨a, -, -, hp⟩ | ⟨a, r, rfl, hc, hp⟩ <;> rw [hp]
  · rfl
  · have hr : r ≠ .intcon3 := fun e => h (congrArg some (cellAt_unique 0xFF0#12 (by decide) (e ▸ hc)))
    cases r <;> first | rfl | exact absurd rfl hr | simp [pokeSfr]

theorem poke_rcon (h : T ≠ some 0xFD0#12) : (poke T v s).rcon = s.rcon := by
  rcases poke_cases T v s with hp | ⟨a, -, -, hp⟩ | ⟨a, r, rfl, hc, hp⟩ <;> rw [hp]
  · rfl
  · have hr : r ≠ .rcon := fun e => h (congrArg some (cellAt_unique 0xFD0#12 (by decide) (e ▸ hc)))
    cases r <;> first | rfl | exact absurd rfl hr | simp [pokeSfr]

theorem poke_pir1 (h : T ≠ some 0xF9E#12) : (poke T v s).pir1 = s.pir1 := by
  rcases poke_cases T v s with hp | ⟨a, -, -, hp⟩ | ⟨a, r, rfl, hc, hp⟩ <;> rw [hp]
  · rfl
  · have hr : r ≠ .pir1 := fun e => h (congrArg some (cellAt_unique 0xF9E#12 (by decide) (e ▸ hc)))
    cases r <;> first | rfl | exact absurd rfl hr | simp [pokeSfr]

theorem poke_pie1 (h : T ≠ some 0xF9D#12) : (poke T v s).pie1 = s.pie1 := by
  rcases poke_cases T v s with hp | ⟨a, -, -, hp⟩ | ⟨a, r, rfl, hc, hp⟩ <;> rw [hp]
  · rfl
  · have hr : r ≠ .pie1 := fun e => h (congrArg some (cellAt_unique 0xF9D#12 (by decide) (e ▸ hc)))
    cases r <;> first | rfl | exact absurd rfl hr | simp [pokeSfr]

theorem poke_ipr1 (h : T ≠ some 0xF9F#12) : (poke T v s).ipr1 = s.ipr1 := by
  rcases poke_cases T v s with hp | ⟨a, -, -, hp⟩ | ⟨a, r, rfl, hc, hp⟩ <;> rw [hp]
  · rfl
  · have hr : r ≠ .ipr1 := fun e => h (congrArg some (cellAt_unique 0xF9F#12 (by decide) (e ▸ hc)))
    cases r <;> first | rfl | exact absurd rfl hr | simp [pokeSfr]

theorem poke_pir2 (h : T ≠ some 0xFA1#12) : (poke T v s).pir2 = s.pir2 := by
  rcases poke_cases T v s with hp | ⟨a, -, -, hp⟩ | ⟨a, r, rfl, hc, hp⟩ <;> rw [hp]
  · rfl
  · have hr : r ≠ .pir2 := fun e => h (congrArg some (cellAt_unique 0xFA1#12 (by decide) (e ▸ hc)))
    cases r <;> first | rfl | exact absurd rfl hr | simp [pokeSfr]

theorem poke_pie2 (h : T ≠ some 0xFA0#12) : (poke T v s).pie2 = s.pie2 := by
  rcases poke_cases T v s with hp | ⟨a, -, -, hp⟩ | ⟨a, r, rfl, hc, hp⟩ <;> rw [hp]
  · rfl
  · have hr : r ≠ .pie2 := fun e => h (congrArg some (cellAt_unique 0xFA0#12 (by decide) (e ▸ hc)))
    cases r <;> first | rfl | exact absurd rfl hr | simp [pokeSfr]

theorem poke_ipr2 (h : T ≠ some 0xFA2#12) : (poke T v s).ipr2 = s.ipr2 := by
  rcases poke_cases T v s with hp | ⟨a, -, -, hp⟩ | ⟨a, r, rfl, hc, hp⟩ <;> rw [hp]
  · rfl
  · have hr : r ≠ .ipr2 := fun e => h (congrArg some (cellAt_unique 0xFA2#12 (by decide) (e ▸ hc)))
    cases r <;> first | rfl | exact absurd rfl hr | simp [pokeSfr]

/-! ### Fields with several addresses -/

theorem poke_fsr {n : FsrIndex} (hl : T ≠ some (fsrBytes n).1) (hh : T ≠ some (fsrBytes n).2) :
    (poke T v s).fsr n = s.fsr n := by
  rcases poke_cases T v s with hp | ⟨a, -, -, hp⟩ | ⟨a, r, rfl, hc, hp⟩ <;> rw [hp]
  · cases n <;> rfl
  · have hrl : r ≠ .fsrl n := fun e => hl (congrArg some (sfrAt_fsrl.1 (sfrAt_of_cellAt (e ▸ hc))))
    have hrh : r ≠ .fsrh n := fun e => hh (congrArg some (sfrAt_fsrh.1 (sfrAt_of_cellAt (e ▸ hc))))
    cases r with
    | fsrl m => exact State.fsr_setFsr_other _ _ _ _ (fun e => hrl (e ▸ rfl))
    | fsrh m => exact State.fsr_setFsr_other _ _ _ _ (fun e => hrh (e ▸ rfl))
    | _ => cases n <;> first | rfl | simp [pokeSfr, State.fsr]

theorem poke_tblptr (h : T ∉ [some 0xFF6#12, some 0xFF7#12, some 0xFF8#12]) : (poke T v s).tblptr = s.tblptr := by
  rcases poke_cases T v s with hp | ⟨a, -, -, hp⟩ | ⟨a, r, rfl, hc, hp⟩ <;> rw [hp]
  · rfl
  · have h1 : r ≠ .tblptrl := fun e => h (by rw [cellAt_unique (a := a) 0xFF6#12 (by decide) (e ▸ hc)]; decide)
    have h2 : r ≠ .tblptrh := fun e => h (by rw [cellAt_unique (a := a) 0xFF7#12 (by decide) (e ▸ hc)]; decide)
    have h3 : r ≠ .tblptru := fun e => h (by rw [cellAt_unique (a := a) 0xFF8#12 (by decide) (e ▸ hc)]; decide)
    cases r <;> first | rfl | exact absurd rfl h1 | exact absurd rfl h2 | exact absurd rfl h3 | simp [pokeSfr]

theorem poke_stack (h : T ∉ tosTargets) : (poke T v s).stack = s.stack := by
  rcases poke_cases T v s with hp | ⟨a, -, -, hp⟩ | ⟨a, r, rfl, hc, hp⟩ <;> rw [hp]
  · rfl
  · have h1 : r ≠ .tosl := fun e => h (by rw [cellAt_unique (a := a) 0xFFD#12 (by decide) (e ▸ hc)]; decide)
    have h2 : r ≠ .tosh := fun e => h (by rw [cellAt_unique (a := a) 0xFFE#12 (by decide) (e ▸ hc)]; decide)
    have h3 : r ≠ .tosu := fun e => h (by rw [cellAt_unique (a := a) 0xFFF#12 (by decide) (e ▸ hc)]; decide)
    cases r <;> first | rfl | exact absurd rfl h1 | exact absurd rfl h2 | exact absurd rfl h3 | simp [pokeSfr]

/-- Only the top entry of the return stack is written through data memory (R42). -/
theorem poke_stackEntry {j : BitVec 5} (hj : j ≠ 0#5) (h : j ≠ s.sp) :
    (poke T v s).stackEntry j = s.stackEntry j := by
  rcases poke_cases T v s with hp | ⟨a, -, -, hp⟩ | ⟨a, r, rfl, hc, hp⟩ <;> rw [hp]
  · rfl
  · cases r with
    | tosl => exact State.stackEntry_setStackEntry_other _ _ _ _ hj h
    | tosh => exact State.stackEntry_setStackEntry_other _ _ _ _ hj h
    | tosu => exact State.stackEntry_setStackEntry_other _ _ _ _ hj h
    | _ => exact State.stackEntry_congr (by simp [pokeSfr]) j

/-! ### Data memory -/

/-- A write changes the byte at its target alone. -/
theorem poke_ramAt {b : DAddr} (h : T ≠ some b) : (poke T v s).ramAt b = s.ramAt b := by
  have key : ∀ a, T = some a → (s.setRam a v).ramAt b = s.ramAt b := fun a ha => by
    refine Memory.read_write_other _ _ _ _ fun e => h ?_
    rw [ha, BitVec.eq_of_toNat_eq e]
  rcases poke_cases T v s with hp | ⟨a, ha, -, hp⟩ | ⟨a, r, ha, -, hp⟩ <;> rw [hp]
  · exact key a ha
  · cases r with
    | periph p => exact key a ha
    | _ => simp [pokeSfr, State.ramAt]

/-- Data memory changes only by a write to a storage cell: general-purpose RAM, or a peripheral's byte. -/
theorem poke_data_cases (T : Target) (v : Byte) (s : State) :
    (poke T v s).data = s.data ∨
      ∃ a, T = some a ∧ storageCell a = true ∧ (poke T v s).data = s.data.write Config.dataFill a.toNat v := by
  rcases poke_cases T v s with hp | ⟨a, ha, hc, hp⟩ | ⟨a, r, ha, hc, hp⟩ <;> rw [hp]
  · exact .inl rfl
  · exact .inr ⟨a, ha, by simp [storageCell, hc], rfl⟩
  · cases r <;> first | exact .inr ⟨a, ha, by simp [storageCell, hc], rfl⟩ | exact .inl (by simp [pokeSfr])

/-- Reading back a byte of general-purpose RAM after writing it (R83). -/
theorem poke_ramAt_same {a : DAddr} (ha : cellAt a = .gpr) (hs : Memory.wf Config.dataFill s.data) :
    (poke (some a) v s).ramAt a = v := by
  simp only [poke, ha]
  exact Memory.read_write_same _ _ _ hs

end Sys2Proof.Machine
end

