-- ==== Sys2Proof/Laws/Forms.lean ====
section
/-! SUPPORT. The file forms as instances of the shared templates, with the flags each can write; where the windows are; the
pointer modification as a record update. A proof over all forms of a kind uses one of these and one template lemma of
Laws/Operands.lean. -/

namespace Sys2Proof.Machine

/-- An instruction that writes a flag only where it lists it, and lists one exactly when it affects one (R31, R35). -/
structure WritesListed (i : Instr) (fw : FlagWrite) : Prop where
  n : (flagsListed i).n = false → fw.n = none
  ov : (flagsListed i).ov = false → fw.ov = none
  z : (flagsListed i).z = false → fw.z = none
  dc : (flagsListed i).dc = false → fw.dc = none
  c : (flagsListed i).c = false → fw.c = none
  affects : fw.affects = true ↔ ¬ listsNoFlag i

/-- Flags written as listed leave the others. -/
theorem WritesListed.kept {i : Instr} {fw : FlagWrite} (h : WritesListed i fw) {s t : State}
    (ht : t.status = s.status.setFlags fw) : FlagsKept i s t where
  n hn := by simp [ht, h.n hn]
  ov hn := by simp [ht, h.ov hn]
  z hn := by simp [ht, h.z hn]
  dc hn := by simp [ht, h.dc hn]
  c hn := by simp [ht, h.c hn]

/-- Each `f,d,a` form is the template `fileOp` over an operation on bytes. -/
theorem aluForms_template {f : Byte} {d a : Bool} {i : Instr} (h : i ∈ aluForms f d a) :
    ∃ alu skips, (∀ s, exec i s = outcome (fileOp f d a alu skips s)) ∧
      ∀ v w st, WritesListed i (alu v w st).2 := by
  simp only [aluForms, List.mem_cons, List.mem_nil_iff, or_false] at h
  rcases h with
    rfl | rfl | rfl | rfl | rfl | rfl | rfl | rfl | rfl | rfl | rfl | rfl | rfl | rfl | rfl | rfl | rfl | rfl | rfl |
    rfl | rfl
  all_goals refine ⟨_, _, fun s => rfl, fun v w st => ⟨?_, ?_, ?_, ?_, ?_, ?_⟩⟩
  all_goals first
    | (intro h; first | rfl | cases h)
    | (simp [listsNoFlag, flagsListed, Status.zero]; try rfl)

/-- NEGF, BCF, BSF and BTG are the template with `d` = 1. -/
theorem modifyForms_template {f : Byte} {b : BitVec 3} {a : Bool} {i : Instr} (h : i ∈ modifyForms f b a) :
    ∃ alu skips, (∀ s, exec i s = outcome (fileOp f true a alu skips s)) ∧
      ∀ v w st, WritesListed i (alu v w st).2 := by
  simp only [modifyForms, List.mem_cons, List.mem_nil_iff, or_false] at h
  rcases h with rfl | rfl | rfl | rfl
  all_goals refine ⟨_, _, fun s => rfl, fun v w st => ⟨?_, ?_, ?_, ?_, ?_, ?_⟩⟩
  all_goals first
    | (intro h; first | rfl | cases h)
    | (simp [listsNoFlag, flagsListed, Status.zero]; try rfl)

/-- MOVWF, CLRF and SETF are the template `fileStore`. -/
theorem storeForms_template {f : Byte} {a : Bool} {i : Instr} (h : i ∈ storeForms f a) :
    ∃ (v : State → Byte) (fw : FlagWrite), (∀ s, exec i s = outcome (fileStore f a (v s) fw s)) ∧ WritesListed i fw := by
  simp only [storeForms, List.mem_cons, List.mem_nil_iff, or_false] at h
  rcases h with rfl | rfl | rfl
  · refine ⟨fun s => s.w, _, fun s => rfl, ⟨?_, ?_, ?_, ?_, ?_, ?_⟩⟩ <;>
      first | (intro h; rfl) | (simp [listsNoFlag, flagsListed, Status.zero]; try rfl)
  · refine ⟨fun _ => 0#8, _, fun s => rfl, ⟨?_, ?_, ?_, ?_, ?_, ?_⟩⟩ <;>
      first | (intro h; rfl) | (intro h; cases h) | (simp [listsNoFlag, flagsListed, Status.zero]; try rfl)
  · refine ⟨fun _ => 0xFF#8, _, fun s => rfl, ⟨?_, ?_, ?_, ?_, ?_, ?_⟩⟩ <;>
      first | (intro h; rfl) | (simp [listsNoFlag, flagsListed, Status.zero]; try rfl)

/-- The compares and tests are the template `fileTest`. -/
theorem testForms_template {f : Byte} {b : BitVec 3} {a : Bool} {i : Instr} (h : i ∈ testForms f b a) :
    ∃ test, ∀ s, exec i s = outcome (fileTest f a test s) := by
  simp only [testForms, List.mem_cons, List.mem_nil_iff, or_false] at h
  rcases h with rfl | rfl | rfl | rfl | rfl | rfl <;> exact ⟨_, fun s => rfl⟩

/-- The pointer modification writes pointers alone. -/
theorem bump_eq (A : DAddr) (s : State) :
    bump A s = { s with fsr0 := (bump A s).fsr0, fsr1 := (bump A s).fsr1, fsr2 := (bump A s).fsr2 } := by
  rcases bump_cases A s with h | ⟨k, n, v, -, -, h⟩ <;> rw [h]
  cases n <;> rfl

/-- The windows are the fifteen addresses of R50. -/
theorem windowAt_isSome_iff {x : DAddr} :
    (windowAt x).isSome = true ↔
      (0xFEB ≤ x.toNat ∧ x.toNat ≤ 0xFEF) ∨ (0xFE3 ≤ x.toNat ∧ x.toNat ≤ 0xFE7) ∨
        (0xFDB ≤ x.toNat ∧ x.toNat ≤ 0xFDF) := by
  constructor
  · intro h
    obtain ⟨⟨k, n⟩, hw⟩ := Option.isSome_iff_exists.1 h
    have hrow := (by decide : ∀ p ∈ sfrMap, (match p.2 with
      | .window _ _ =>
        decide ((0xFEB ≤ p.1 ∧ p.1 ≤ 0xFEF) ∨ (0xFE3 ≤ p.1 ∧ p.1 ≤ 0xFE7) ∨ (0xFDB ≤ p.1 ∧ p.1 ≤ 0xFDF))
      | _ => true) = true) _ (sfrAt_mem (windowAt_some.1 hw))
    exact of_decide_eq_true hrow
  · have hall : ∀ v ∈ (List.range 5).map (0xFEB + ·) ++ (List.range 5).map (0xFE3 + ·) ++ (List.range 5).map (0xFDB + ·),
        (windowAt (BitVec.ofNat 12 v)).isSome = true := by decide
    intro h
    have hv : x.toNat ∈
        (List.range 5).map (0xFEB + ·) ++ (List.range 5).map (0xFE3 + ·) ++ (List.range 5).map (0xFDB + ·) := by
      simp only [List.mem_append, List.mem_map, List.mem_range]
      rcases h with h | h | h
      · exact .inl (.inl ⟨x.toNat - 0xFEB, by omega, by omega⟩)
      · exact .inl (.inr ⟨x.toNat - 0xFE3, by omega, by omega⟩)
      · exact .inr ⟨x.toNat - 0xFDB, by omega, by omega⟩
    simpa using hall _ hv

/-- The bits of a bit mask. -/
theorem bitMask_getLsbD (b : BitVec 3) (n : Nat) : (bitMask b).getLsbD n = decide (n = b.toNat) := by
  by_cases h : n < 8
  · exact (by decide : ∀ b : BitVec 3, ∀ n < 8, (bitMask b).getLsbD n = decide (n = b.toNat)) b n h
  · rw [BitVec.getLsbD_of_ge _ _ (by omega)]
    have := b.isLt
    exact (decide_eq_false (by omega)).symm

end Sys2Proof.Machine
end

