-- ==== Sys2Proof/Laws/Invariant.lean ====
section
/-! SUPPORT. Every memory operation keeps the canonical form of both memories and stays within its space; the reset state has
them. -/

namespace Sys2Proof.Machine

/-! ### Canonical form -/

theorem setRam_data_wf {s : State} {a : DAddr} {v : Byte} (h : Memory.wf Config.dataFill s.data) :
    Memory.wf Config.dataFill (s.setRam a v).data :=
  Memory.write_wf _ _ _ h

theorem setProgByte_prog_wf {s : State} {a : Nat} {v : Byte} (h : Memory.wf Config.progFill s.prog) :
    Memory.wf Config.progFill (s.setProgByte a v).prog :=
  Memory.write_wf _ _ _ h

/-- Placing program bytes keeps the canonical form. -/
theorem placeBytes_prog_wf (bs : List Byte) : ∀ (s : State) (a : Nat), Memory.wf Config.progFill s.prog →
    Memory.wf Config.progFill (s.placeBytes a bs).prog := by
  induction bs with
  | nil => exact fun s a h => h
  | cons v vs ih =>
    intro s a h
    refine ih _ _ ?_
    split
    · exact setProgByte_prog_wf h
    · exact h

/-- A data write keeps the canonical form. -/
theorem poke_data_wf {T : Target} {v : Byte} {s : State} (h : Memory.wf Config.dataFill s.data) :
    Memory.wf Config.dataFill (poke T v s).data := by
  rcases poke_data_cases T v s with hd | ⟨a, -, -, hd⟩ <;> rw [hd]
  · exact h
  · exact Memory.write_wf _ _ _ h

theorem reset_data_wf : Memory.wf Config.dataFill State.reset.data := by decide

theorem reset_prog_wf : Memory.wf Config.progFill State.reset.prog := by decide

/-! ### Cells in use -/

/-- A data write lists storage cells only. -/
theorem poke_data_cells {T : Target} {v : Byte} {s : State}
    (h : ∀ c ∈ s.data, c.1 < 4096 ∧ storageCell (BitVec.ofNat 12 c.1) = true) :
    ∀ c ∈ (poke T v s).data, c.1 < 4096 ∧ storageCell (BitVec.ofNat 12 c.1) = true := by
  intro c hc
  rcases poke_data_cases T v s with hd | ⟨a, -, ha, hd⟩ <;> rw [hd] at hc
  · exact h c hc
  · rcases Memory.mem_write _ _ _ _ hc with hc | ⟨rfl, -⟩
    · exact h c hc
    · exact ⟨a.isLt, by simpa using ha⟩

/-! ### Bits of the interrupt registers (R62) -/

/-- A masked byte has no bit outside the mask. -/
theorem masked_clear (v m : Byte) : (v &&& m) &&& ~~~m = 0#8 := by
  apply BitVec.eq_of_getLsbD_eq; intro i hi
  simp [hi]

/-- On the configured device every bit of PIR1, PIE1 and IPR1 exists. -/
theorem pspMask_eq : pspMask = 0xFF#8 := rfl

end Sys2Proof.Machine
end

