-- ==== Sys2Proof/Laws/PerInstr.lean ====
section
/-! SUPPORT. Families of statements made per instruction, one lemma per constructor of `Instr`. -/

namespace Sys2Proof.Laws.EncodedLength

/-- An instruction occupies as many bytes of program memory as R120 says: its encoding has its length. -/
def Statement (i : Instr) : Prop := (encodeBytes i).length = i.bytes

theorem movlb (k : BitVec 4) : Statement (.movlb k) := rfl
theorem movlw (k : Byte) : Statement (.movlw k) := rfl
theorem movf (f : Byte) (d a : Bool) : Statement (.movf f d a) := rfl
theorem movff (fs fd : DAddr) : Statement (.movff fs fd) := rfl
theorem movwf (f : Byte) (a : Bool) : Statement (.movwf f a) := rfl
theorem swapf (f : Byte) (d a : Bool) : Statement (.swapf f d a) := rfl
theorem tblrd : Statement (.tblrd) := rfl
theorem tblrdPostInc : Statement (.tblrdPostInc) := rfl
theorem tblrdPostDec : Statement (.tblrdPostDec) := rfl
theorem tblrdPreInc : Statement (.tblrdPreInc) := rfl
theorem tblwt : Statement (.tblwt) := rfl
theorem tblwtPostInc : Statement (.tblwtPostInc) := rfl
theorem tblwtPostDec : Statement (.tblwtPostDec) := rfl
theorem tblwtPreInc : Statement (.tblwtPreInc) := rfl
theorem addlw (k : Byte) : Statement (.addlw k) := rfl
theorem addwf (f : Byte) (d a : Bool) : Statement (.addwf f d a) := rfl
theorem addwfc (f : Byte) (d a : Bool) : Statement (.addwfc f d a) := rfl
theorem mullw (k : Byte) : Statement (.mullw k) := rfl
theorem mulwf (f : Byte) (a : Bool) : Statement (.mulwf f a) := rfl
theorem sublw (k : Byte) : Statement (.sublw k) := rfl
theorem subwf (f : Byte) (d a : Bool) : Statement (.subwf f d a) := rfl
theorem subwfb (f : Byte) (d a : Bool) : Statement (.subwfb f d a) := rfl
theorem clrf (f : Byte) (a : Bool) : Statement (.clrf f a) := rfl
theorem decf (f : Byte) (d a : Bool) : Statement (.decf f d a) := rfl
theorem decfsz (f : Byte) (d a : Bool) : Statement (.decfsz f d a) := rfl
theorem dcfsnz (f : Byte) (d a : Bool) : Statement (.dcfsnz f d a) := rfl
theorem incf (f : Byte) (d a : Bool) : Statement (.incf f d a) := rfl
theorem incfsz (f : Byte) (d a : Bool) : Statement (.incfsz f d a) := rfl
theorem infsnz (f : Byte) (d a : Bool) : Statement (.infsnz f d a) := rfl
theorem setf (f : Byte) (a : Bool) : Statement (.setf f a) := rfl
theorem andlw (k : Byte) : Statement (.andlw k) := rfl
theorem andwf (f : Byte) (d a : Bool) : Statement (.andwf f d a) := rfl
theorem comf (f : Byte) (d a : Bool) : Statement (.comf f d a) := rfl
theorem cpfseq (f : Byte) (a : Bool) : Statement (.cpfseq f a) := rfl
theorem cpfsgt (f : Byte) (a : Bool) : Statement (.cpfsgt f a) := rfl
theorem cpfslt (f : Byte) (a : Bool) : Statement (.cpfslt f a) := rfl
theorem iorlw (k : Byte) : Statement (.iorlw k) := rfl
theorem iorwf (f : Byte) (d a : Bool) : Statement (.iorwf f d a) := rfl
theorem lfsr (ff : BitVec 2) (k : BitVec 12) : Statement (.lfsr ff k) := rfl
theorem negf (f : Byte) (a : Bool) : Statement (.negf f a) := rfl
theorem rlcf (f : Byte) (d a : Bool) : Statement (.rlcf f d a) := rfl
theorem rlncf (f : Byte) (d a : Bool) : Statement (.rlncf f d a) := rfl
theorem rrcf (f : Byte) (d a : Bool) : Statement (.rrcf f d a) := rfl
theorem rrncf (f : Byte) (d a : Bool) : Statement (.rrncf f d a) := rfl
theorem tstfsz (f : Byte) (a : Bool) : Statement (.tstfsz f a) := rfl
theorem xorlw (k : Byte) : Statement (.xorlw k) := rfl
theorem xorwf (f : Byte) (d a : Bool) : Statement (.xorwf f d a) := rfl
theorem bcf (f : Byte) (b : BitVec 3) (a : Bool) : Statement (.bcf f b a) := rfl
theorem bsf (f : Byte) (b : BitVec 3) (a : Bool) : Statement (.bsf f b a) := rfl
theorem btfsc (f : Byte) (b : BitVec 3) (a : Bool) : Statement (.btfsc f b a) := rfl
theorem btfss (f : Byte) (b : BitVec 3) (a : Bool) : Statement (.btfss f b a) := rfl
theorem btg (f : Byte) (b : BitVec 3) (a : Bool) : Statement (.btg f b a) := rfl
theorem bc (n : BitVec 8) : Statement (.bc n) := rfl
theorem bn (n : BitVec 8) : Statement (.bn n) := rfl
theorem bnc (n : BitVec 8) : Statement (.bnc n) := rfl
theorem bnn (n : BitVec 8) : Statement (.bnn n) := rfl
theorem bnov (n : BitVec 8) : Statement (.bnov n) := rfl
theorem bnz (n : BitVec 8) : Statement (.bnz n) := rfl
theorem bov (n : BitVec 8) : Statement (.bov n) := rfl
theorem bz (n : BitVec 8) : Statement (.bz n) := rfl
theorem bra (n : BitVec 11) : Statement (.bra n) := rfl
theorem call (k : BitVec 20) (s : Bool) : Statement (.call k s) := rfl
theorem clrwdt : Statement (.clrwdt) := rfl
theorem goto (k : BitVec 20) : Statement (.goto k) := rfl
theorem nop : Statement (.nop) := rfl
theorem nopF (x : BitVec 12) : Statement (.nopF x) := rfl
theorem pop : Statement (.pop) := rfl
theorem push : Statement (.push) := rfl
theorem rcall (n : BitVec 11) : Statement (.rcall n) := rfl
theorem reset : Statement (.reset) := rfl
theorem retfie (s : Bool) : Statement (.retfie s) := rfl
theorem retlw (k : Byte) : Statement (.retlw k) := rfl
theorem ret (s : Bool) : Statement (.ret s) := rfl
theorem sleep : Statement (.sleep) := rfl
theorem subfwb (f : Byte) (d a : Bool) : Statement (.subfwb f d a) := rfl
theorem daw : Statement (.daw) := rfl

end Sys2Proof.Laws.EncodedLength
end

