-- ==== Sys2Proof/Laws/Step.lean ====
section
/-! SUPPORT. The instruction boundary and the step: every way each can end, said once. -/

namespace Sys2Proof.Machine

/-! ### Waking up -/

/-- Waking up is leaving standby, or nothing. -/
theorem wakeIfRequested_cases (s : State) :
    s.wakeIfRequested = s ∨ (s.sleeping = true ∧ wakeRequest s = true ∧ s.wakeIfRequested = { s with sleeping := false }) := by
  unfold State.wakeIfRequested
  split
  · rename_i h
    rw [Bool.and_eq_true] at h
    exact .inr ⟨h.1, h.2, rfl⟩
  · exact .inl rfl

/-- Waking up changes standby alone. -/
theorem wakeIfRequested_eq (s : State) : s.wakeIfRequested = { s with sleeping := s.wakeIfRequested.sleeping } := by
  rcases wakeIfRequested_cases s with h | ⟨-, -, h⟩ <;> rw [h]

@[simp] theorem wakeIfRequested_intcon (s : State) : s.wakeIfRequested.intcon = s.intcon := by rw [wakeIfRequested_eq]
@[simp] theorem wakeIfRequested_isrLevel (s : State) : s.wakeIfRequested.isrLevel = s.isrLevel := by
  rw [wakeIfRequested_eq]

/-! ### The boundary (R320) -/

/-- What the environment's move leaves, case by case, in the order of R320. -/
theorem boundary_cases (s : State) :
    (s.env = [] ∧ boundary s = .run s) ∨
      ∃ m later, s.env = m :: later ∧
        ((∃ k, m.reset = some k ∧ boundary s = .reset ({ s with env := later }.externalReset k)) ∨
          (m.reset = none ∧
            ((m.wdtTimeout = false ∧ boundary s = .run ({ s with env := later }.applyFlags m)) ∨
              (m.wdtTimeout = true ∧ s.sleeping = true ∧
                boundary s = .run ({ s with env := later }.applyFlags m).watchdogWake) ∨
              (m.wdtTimeout = true ∧ s.sleeping = false ∧
                boundary s = .reset ({ s with env := later }.applyFlags m).watchdogReset)))) := by
  cases he : s.env with
  | nil => exact .inl ⟨rfl, by simp [boundary, he]⟩
  | cons m later =>
    refine .inr ⟨m, later, rfl, ?_⟩
    cases hr : m.reset with
    | some k => exact .inl ⟨k, rfl, by simp [boundary, he, hr]⟩
    | none =>
      refine .inr ⟨rfl, ?_⟩
      cases hw : m.wdtTimeout with
      | false => exact .inl ⟨rfl, by simp [boundary, he, hr, hw]⟩
      | true =>
        cases hs : s.sleeping with
        | true => exact .inr (.inl ⟨rfl, rfl, by simp [boundary, he, hr, hw, Config.wdtEnabled, State.applyFlags, hs]⟩)
        | false => exact .inr (.inr ⟨rfl, rfl, by simp [boundary, he, hr, hw, Config.wdtEnabled, State.applyFlags, hs]⟩)

/-! ### The step (R12, R320) -/

/-- Every way a step answers a next state: a reset at the boundary; standby; an interrupt; an instruction. -/
theorem step_next_cases {s t : State} (h : step s = .next t) :
    boundary s = .reset t ∨
      ∃ s1, boundary s = .run s1 ∧
        ((s1.wakeIfRequested.sleeping = true ∧ t = s1.wakeIfRequested) ∨
          (s1.wakeIfRequested.sleeping = false ∧
            ((∃ lvl, pendingInterrupt s1.wakeIfRequested = some lvl ∧ takeInterrupt lvl s1.wakeIfRequested = .ok t) ∨
              (pendingInterrupt s1.wakeIfRequested = none ∧
                ∃ i rest, decode (fetchBytes s1.wakeIfRequested) = .ok i rest ∧
                  exec i s1.wakeIfRequested = .next t)))) := by
  unfold step at h
  cases hb : boundary s with
  | reset u =>
    simp only [hb] at h
    injection h with h
    exact .inl (h ▸ rfl)
  | run s1 =>
    refine .inr ⟨s1, rfl, ?_⟩
    simp only [hb] at h
    cases hs : s1.wakeIfRequested.sleeping with
    | true =>
      simp only [hs, if_true] at h
      injection h with h
      exact .inl ⟨rfl, h.symm⟩
    | false =>
      simp only [hs, Bool.false_eq_true, if_false] at h
      refine .inr ⟨rfl, ?_⟩
      cases hp : pendingInterrupt s1.wakeIfRequested with
      | some lvl =>
        simp only [hp] at h
        exact .inl ⟨lvl, rfl, by
          unfold outcome at h
          split at h
          · rename_i ho
            injection h with h
            exact h ▸ ho
          · cases h⟩
      | none =>
        simp only [hp] at h
        refine .inr ⟨rfl, ?_⟩
        unfold fetch at h
        cases hd : decode (fetchBytes s1.wakeIfRequested) with
        | ok i rest =>
          simp only [hd] at h
          exact ⟨i, rest, rfl, h⟩
        | illegalInstruction => simp only [hd] at h; cases h
        | malformedSecondWord => simp only [hd] at h; cases h
        | truncated => simp only [hd] at h; cases h

end Sys2Proof.Machine
end

