-- ==== Sys2Proof/Tests/Slice0.lean ====
section
/-! SUPPORT. The model's own tests: the well-formedness smoke, the words of the spec's encodings, one step per instruction from
the vectors of spec/95_test_vectors.md, the register map's counts, and for each statement with hypotheses a state and operands
that meet them. -/

namespace Sys2Proof.Tests.Slice0

open Sys2Proof Sys2Proof.Machine

/-! ### Helpers -/

/-- The words decode to the instruction, with nothing left. -/
abbrev reads (ws : List (BitVec 16)) (i : Instr) : Prop := decode (wordBytes ws) = .ok i []

/-- The next step runs the given words and leaves a state that passes the check. -/
def stepsTo (nbits w : Nat) (s : State) (good : State → Bool) : Bool :=
  match step (s.withFetchWord nbits w) with
  | .next t => good t
  | _ => false

/-- The next step, on the given words, stops with the given fault. -/
def stopsWith (nbits w : Nat) (s : State) (e : Fault) : Bool :=
  match step (s.withFetchWord nbits w) with
  | .fault e' => e' == e
  | _ => false

/-- The instruction answers a next state. -/
def completes (i : Instr) (s : State) : Bool :=
  match exec i s with
  | .next _ => true
  | _ => false

theorem exists_next_of_completes {i : Instr} {s : State} (h : completes i s = true) : ∃ t, exec i s = .next t := by
  unfold completes at h
  split at h
  · exact ⟨_, by assumption⟩
  · cases h

/-- The instruction stops with the fault. -/
def stops (i : Instr) (s : State) (e : Fault) : Bool :=
  match exec i s with
  | .fault e' => decide (e' = e)
  | _ => false

theorem exec_fault_of_stops {i : Instr} {s : State} {e : Fault} (h : stops i s e = true) : exec i s = .fault e := by
  unfold stops at h
  split at h
  · rename_i e' he
    rw [he, of_decide_eq_true h]
  · cases h

/-- An operand that is no stepping window on its own pointer, nor the top of an empty stack, can be read. -/
theorem readable_of {A : DAddr} {s : State} (h1 : ownFsrHit A s = false) (h2 : target A s ∈ tosTargets → s.sp ≠ 0#5) :
    Readable A s :=
  ⟨ownFsrHit_eq_false.1 h1, h2⟩

/-! ### Well-formedness: each check refuses an ill-formed term -/

/-- R133: LFSR 3 is no instruction; LFSR 2 is. -/
theorem test_wf_lfsr : (Instr.lfsr 3 0x3AB).wellFormed = false ∧ (Instr.lfsr 2 0x3AB).wellFormed = true := by decide

/-- R300: the secondary-only instructions exist under `HAS_SUBFWB_DAW` alone. -/
theorem test_wf_secondary :
    (Instr.subfwb 0x20 true false).wellFormedOn false = false ∧ Instr.daw.wellFormedOn false = false ∧
      (Instr.subfwb 0x20 true false).wellFormedOn true = true ∧ Instr.daw.wellFormedOn true = true := by decide

/-! ### Decoding: words written from the encodings of spec/40 to spec/45

Each word is the row's encoding with the operand bits filled in by hand. -/

theorem test_decode_data_movement_1 :
    reads [0b0000000100000111] (.movlb 0b0111) ∧
      reads [0b0000111011111001] (.movlw 0b11111001) ∧
      reads [0b0101001000001110] (.movf 0b00001110 true false) ∧
      reads [0b1100011011000000, 0b1111011101110010] (.movff 0b011011000000 0b011101110010) ∧
      reads [0b0110111011010110] (.movwf 0b11010110 false) ∧
      reads [0b0011100011101011] (.swapf 0b11101011 false false) ∧
      reads [0b0000000000001000] (.tblrd) ∧
      reads [0b0000000000001001] (.tblrdPostInc) ∧
      reads [0b0000000000001010] (.tblrdPostDec) ∧
      reads [0b0000000000001011] (.tblrdPreInc) ∧
      reads [0b0000000000001100] (.tblwt) ∧
      reads [0b0000000000001101] (.tblwtPostInc) := by decide

theorem test_decode_data_movement_2 :
    reads [0b0000000000001110] (.tblwtPostDec) ∧
      reads [0b0000000000001111] (.tblwtPreInc) := by decide

theorem test_decode_arithmetic_1 :
    reads [0b0000111110011101] (.addlw 0b10011101) ∧
      reads [0b0010011110110011] (.addwf 0b10110011 true true) ∧
      reads [0b0010001111001001] (.addwfc 0b11001001 true true) ∧
      reads [0b0000110101111010] (.mullw 0b01111010) ∧
      reads [0b0000001011011110] (.mulwf 0b11011110 false) ∧
      reads [0b0000100010010000] (.sublw 0b10010000) ∧
      reads [0b0101110010100110] (.subwf 0b10100110 false false) ∧
      reads [0b0101100110111011] (.subwfb 0b10111011 false true) ∧
      reads [0b0110101100011111] (.clrf 0b00011111 true) ∧
      reads [0b0000011100110101] (.decf 0b00110101 true true) ∧
      reads [0b0010111001001010] (.decfsz 0b01001010 true false) ∧
      reads [0b0100110001100000] (.dcfsnz 0b01100000 false false) := by decide

theorem test_decode_arithmetic_2 :
    reads [0b0010100001110110] (.incf 0b01110110 false false) ∧
      reads [0b0011111110001011] (.incfsz 0b10001011 true true) ∧
      reads [0b0100101110100001] (.infsnz 0b10100001 true true) ∧
      reads [0b0110100100000101] (.setf 0b00000101 true) := by decide

theorem test_decode_logic_1 :
    reads [0b0000101110110110] (.andlw 0b10110110) ∧
      reads [0b0001010011001100] (.andwf 0b11001100 false false) ∧
      reads [0b0001110011100010] (.comf 0b11100010 false false) ∧
      reads [0b0110001001000101] (.cpfseq 0b01000101 false) ∧
      reads [0b0110010110101001] (.cpfsgt 0b10101001 true) ∧
      reads [0b0110000100001101] (.cpfslt 0b00001101 true) ∧
      reads [0b0000100110111111] (.iorlw 0b10111111) ∧
      reads [0b0001001111010100] (.iorwf 0b11010100 true true) ∧
      reads [0b1110111000100010, 0b1111000010000110] (.lfsr 0b10 0b001010000110) ∧
      reads [0b0110110011101010] (.negf 0b11101010 false) ∧
      reads [0b0011010000000000] (.rlcf 0b00000000 false false) ∧
      reads [0b0100010100010101] (.rlncf 0b00010101 false true) := by decide

theorem test_decode_logic_2 :
    reads [0b0011001100101011] (.rrcf 0b00101011 true true) ∧
      reads [0b0100001101000001] (.rrncf 0b01000001 true true) ∧
      reads [0b0110011010100100] (.tstfsz 0b10100100 false) ∧
      reads [0b0000101001010110] (.xorlw 0b01010110) ∧
      reads [0b0001100001101100] (.xorwf 0b01101100 false false) := by decide

theorem test_decode_bits :
    reads [0b1001110010000001] (.bcf 0b10000001 0b110 false) ∧
      reads [0b1000011110010111] (.bsf 0b10010111 0b011 true) ∧
      reads [0b1011001110101101] (.btfsc 0b10101101 0b001 true) ∧
      reads [0b1010111011000010] (.btfss 0b11000010 0b111 false) ∧
      reads [0b0111100011011000] (.btg 0b11011000 0b100 false) := by decide

theorem test_decode_control_1 :
    reads [0b1110001010001010] (.bc 0b10001010) ∧
      reads [0b1110011000111100] (.bn 0b00111100) ∧
      reads [0b1110001111101110] (.bnc 0b11101110) ∧
      reads [0b1110011110011111] (.bnn 0b10011111) ∧
      reads [0b1110010101010001] (.bnov 0b01010001) ∧
      reads [0b1110000100000011] (.bnz 0b00000011) ∧
      reads [0b1110010010110101] (.bov 0b10110101) ∧
      reads [0b1110000001100111] (.bz 0b01100111) ∧
      reads [0b1101000100011001] (.bra 0b00100011001) ∧
      reads [0b1110110111001011, 0b1111110101010001] (.call 0b11010101000111001011 true) ∧
      reads [0b0000000000000100] (.clrwdt) ∧
      reads [0b1110111101111101, 0b1111011001100010] (.goto 0b01100110001001111101) := by decide

theorem test_decode_control_2 :
    reads [0b0000000000000000] (.nop) ∧
      reads [0b1111001100101110] (.nopF 0b001100101110) ∧
      reads [0b0000000000000110] (.pop) ∧
      reads [0b0000000000000101] (.push) ∧
      reads [0b1101101111100000] (.rcall 0b01111100000) ∧
      reads [0b0000000011111111] (.reset) ∧
      reads [0b0000000000010001] (.retfie true) ∧
      reads [0b0000110001000100] (.retlw 0b01000100) ∧
      reads [0b0000000000010011] (.ret true) ∧
      reads [0b0000000000000011] (.sleep) := by decide

theorem test_decode_secondary :
    reads [0b0101010000001100] (.subfwb 0b00001100 false false) ∧
      reads [0b0000000000000111] (.daw) := by decide

/-! ### One step per instruction

Each theorem is one vector of spec/95_test_vectors.md (sections 3 and 4): the words, the state before and the cells after are
the file's own. -/

/-- T2: `MOVLB 0x00`. -/
theorem test_movlb :
    stepsTo 16 0x100 { State.reset with pc := 0x000100, bsr := 0x5 }
      (fun t => t.pc == 0x000102 && t.bsr == 0x0) = true := by decide

/-- T3: `MOVLW 0x00`. -/
theorem test_movlw :
    stepsTo 16 0xE00 { State.reset with pc := 0x000100, w := 0x5A }
      (fun t => t.pc == 0x000102 && t.w == 0x00) = true := by decide

/-- T6: `MOVF 0x20,1,0`. -/
theorem test_movf :
    stepsTo 16 0x5220 { State.reset with pc := 0x000100, w := 0x11, data := [(0x020, 0x80)] }
      (fun t => t.pc == 0x000102 && t.status.z == false && t.status.n == true) = true := by decide

/-- T14: `MOVFF 0xFEE,0xFE6`. -/
theorem test_movff :
    stepsTo 32 0xFFE6CFEE { State.reset with pc := 0x000100, fsr0 := 0x100, fsr1 := 0x200, data := [(0x100, 0x5A)] }
      (fun t => t.pc == 0x000104 && t.fsr0 == 0x101 && t.fsr1 == 0x201 && t.ramAt 0x200 == 0x5A) = true := by decide

/-- X12: `MOVWF 0xEE,0`. -/
theorem test_movwf :
    stepsTo 16 0x6EEE { State.reset with pc := 0x000100, w := 0x22, fsr0 := 0x5FF }
      (fun t => t.pc == 0x000102 && t.fsr0 == 0x600 && t.ramAt 0x5FF == 0x22) = true := by decide

/-- T20: `SWAPF 0x20,1,0`. -/
theorem test_swapf :
    stepsTo 16 0x3A20 { State.reset with pc := 0x000100, data := [(0x020, 0x0F)] }
      (fun t => t.pc == 0x000102 && t.ramAt 0x020 == 0xF0) = true := by decide

/-- T21: `TBLRD*`. -/
theorem test_tblrd :
    stepsTo 16 0x8 { State.reset with
        pc := 0x000100, tblptr := 0x000201, prog := [(0x000200, 0x34), (0x000201, 0x12), (0x000202, 0x78)] }
      (fun t => t.pc == 0x000102 && t.tablat == 0x12) = true := by decide

/-- T22: `TBLRD*+`. -/
theorem test_tblrdPostInc :
    stepsTo 16 0x9 { State.reset with
        pc := 0x000100, tblptr := 0x000201, prog := [(0x000200, 0x34), (0x000201, 0x12), (0x000202, 0x78)] }
      (fun t => t.pc == 0x000102 && t.tblptr == 0x000202 && t.tablat == 0x12) = true := by decide

/-- T25: `TBLRD*-`. -/
theorem test_tblrdPostDec :
    stepsTo 16 0xA { State.reset with pc := 0x000100, tblptr := 0x000000 }
      (fun t => t.pc == 0x000102 && t.tblptr == 0x3FFFFF && t.tablat == 0xFF) = true := by decide

/-- T24: `TBLRD+*`. -/
theorem test_tblrdPreInc :
    stepsTo 16 0xB { State.reset with
        pc := 0x000100, tblptr := 0x000201, prog := [(0x000200, 0x34), (0x000201, 0x12), (0x000202, 0x78)] }
      (fun t => t.pc == 0x000102 && t.tblptr == 0x000202 && t.tablat == 0x78) = true := by decide

/-- T29: `TBLWT*`. -/
theorem test_tblwt :
    stepsTo 16 0xC { State.reset with pc := 0x000100, tblptr := 0x00020B, tablat := 0x77 }
      (fun t => t.pc == 0x000102 && t.hold[3] == 0x77) = true := by decide

/-- T30: `TBLWT*+`. -/
theorem test_tblwtPostInc :
    stepsTo 16 0xD { State.reset with pc := 0x000100, tblptr := 0x00020F, tablat := 0x66 }
      (fun t => t.pc == 0x000102 && t.tblptr == 0x000210 && t.hold[7] == 0x66) = true := by decide

/-- T31: `TBLWT*-`. -/
theorem test_tblwtPostDec :
    stepsTo 16 0xE { State.reset with pc := 0x000100, tblptr := 0x000208, tablat := 0x55 }
      (fun t => t.pc == 0x000102 && t.tblptr == 0x000207 && t.hold[0] == 0x55) = true := by decide

/-- T32: `TBLWT+*`. -/
theorem test_tblwtPreInc :
    stepsTo 16 0xF { State.reset with pc := 0x000100, tblptr := 0x000207, tablat := 0x44 }
      (fun t => t.pc == 0x000102 && t.tblptr == 0x000208 && t.hold[0] == 0x44) = true := by decide

/-- A3: `ADDLW 0x80`. -/
theorem test_addlw :
    stepsTo 16 0xF80 { State.reset with pc := 0x000100, w := 0x80 }
      (fun t => t.pc == 0x000102 && t.w == 0x00 && t.status.c == true && t.status.dc == false &&
        t.status.z == true && t.status.ov == true && t.status.n == false) = true := by decide

/-- A8: `ADDWF 0xE8,1,0`. -/
theorem test_addwf :
    stepsTo 16 0x26E8 { State.reset with pc := 0x000100, w := 0x81 }
      (fun t => t.pc == 0x000102 && t.w == 0x02 && t.status.c == true && t.status.dc == false &&
        t.status.z == false && t.status.ov == true && t.status.n == false) = true := by decide

/-- A10: `ADDWFC 0x20,0,0`. -/
theorem test_addwfc :
    stepsTo 16 0x2020 { State.reset with
        pc := 0x000100, w := 0x00, data := [(0x020, 0x7F)], status := ⟨false, false, false, false, true⟩ }
      (fun t => t.pc == 0x000102 && t.w == 0x80 && t.status.c == false && t.status.dc == true &&
        t.status.z == false && t.status.ov == true && t.status.n == true) = true := by decide

/-- A14: `SUBLW 0x80`. -/
theorem test_sublw :
    stepsTo 16 0x880 { State.reset with pc := 0x000100, w := 0x01 }
      (fun t => t.pc == 0x000102 && t.w == 0x7F && t.status.c == true && t.status.dc == false &&
        t.status.z == false && t.status.ov == true && t.status.n == false) = true := by decide

/-- A18: `SUBWF 0x20,0,0`. -/
theorem test_subwf :
    stepsTo 16 0x5C20 { State.reset with pc := 0x000100, w := 0x01, data := [(0x020, 0x10)] }
      (fun t => t.pc == 0x000102 && t.w == 0x0F && t.status.c == true && t.status.dc == false &&
        t.status.z == false && t.status.ov == false && t.status.n == false) = true := by decide

/-- A21: `SUBWFB 0x20,0,0`. -/
theorem test_subwfb :
    stepsTo 16 0x5820 { State.reset with
        pc := 0x000100, w := 0x7F, data := [(0x020, 0x80)], status := ⟨false, false, false, false, false⟩ }
      (fun t => t.pc == 0x000102 && t.w == 0x00 && t.status.c == true && t.status.dc == false &&
        t.status.z == true && t.status.ov == true && t.status.n == false) = true := by decide

/-- A23: `INCF 0x20,0,0`. -/
theorem test_incf :
    stepsTo 16 0x2820 { State.reset with pc := 0x000100, data := [(0x020, 0x7F)] }
      (fun t => t.pc == 0x000102 && t.w == 0x80 && t.status.c == false && t.status.dc == true &&
        t.status.z == false && t.status.ov == true && t.status.n == true) = true := by decide

/-- A25: `DECF 0x20,1,0`. -/
theorem test_decf :
    stepsTo 16 0x620 { State.reset with pc := 0x000100, data := [(0x020, 0x80)] }
      (fun t => t.pc == 0x000102 && t.status.c == true && t.status.dc == false && t.status.z == false &&
        t.status.ov == true && t.status.n == false && t.ramAt 0x020 == 0x7F) = true := by decide

/-- A27: `CLRF 0x20,0`. -/
theorem test_clrf :
    stepsTo 16 0x6A20 { State.reset with pc := 0x000100, status := ⟨true, false, false, false, true⟩ }
      (fun t => t.pc == 0x000102 && t.status.z == true && t.ramAt 0x020 == 0x00) = true := by decide

/-- A28: `SETF 0x20,0`. -/
theorem test_setf :
    stepsTo 16 0x6820 { State.reset with pc := 0x000100 }
      (fun t => t.pc == 0x000102 && t.ramAt 0x020 == 0xFF) = true := by decide

/-- A29: `MULLW 0xFF`. -/
theorem test_mullw :
    stepsTo 16 0xDFF { State.reset with pc := 0x000100, w := 0xFF }
      (fun t => t.pc == 0x000102 && t.prodh == 0xFE && t.prodl == 0x01) = true := by decide

/-- A31: `MULWF 0x20,0`. -/
theorem test_mulwf :
    stepsTo 16 0x220 { State.reset with pc := 0x000100, w := 0x10, data := [(0x020, 0x10)] }
      (fun t => t.pc == 0x000102 && t.prodh == 0x01 && t.prodl == 0x00) = true := by decide

/-- A34: `DECFSZ 0x20,0,0`. -/
theorem test_decfsz :
    stepsTo 16 0x2C20 { State.reset with pc := 0x000100, data := [(0x020, 0x01)] }
      (fun t => t.pc == 0x000104 && t.w == 0x00) = true := by decide

/-- A36: `DCFSNZ 0x20,1,0`. -/
theorem test_dcfsnz :
    stepsTo 16 0x4E20 { State.reset with pc := 0x000100, data := [(0x020, 0x02)] }
      (fun t => t.pc == 0x000104 && t.ramAt 0x020 == 0x01) = true := by decide

/-- A37: `INCFSZ 0x20,1,0`. -/
theorem test_incfsz :
    stepsTo 16 0x3E20 { State.reset with pc := 0x000100, data := [(0x020, 0xFF)] }
      (fun t => t.pc == 0x000104 && t.ramAt 0x020 == 0x00) = true := by decide

/-- A40: `INFSNZ 0x20,1,0`. -/
theorem test_infsnz :
    stepsTo 16 0x4A20 { State.reset with pc := 0x000100, data := [] }
      (fun t => t.pc == 0x000104 && t.ramAt 0x020 == 0x01) = true := by decide

/-- L2: `ANDLW 0xF0`. -/
theorem test_andlw :
    stepsTo 16 0xBF0 { State.reset with pc := 0x000100, w := 0xA5 }
      (fun t => t.pc == 0x000102 && t.w == 0xA0 && t.status.z == false && t.status.n == true) = true := by decide

/-- L3: `IORLW 0x80`. -/
theorem test_iorlw :
    stepsTo 16 0x980 { State.reset with pc := 0x000100, w := 0x01 }
      (fun t => t.pc == 0x000102 && t.w == 0x81 && t.status.z == false && t.status.n == true) = true := by decide

/-- L6: `XORLW 0xFF`. -/
theorem test_xorlw :
    stepsTo 16 0xAFF { State.reset with pc := 0x000100, w := 0x0F }
      (fun t => t.pc == 0x000102 && t.w == 0xF0 && t.status.z == false && t.status.n == true) = true := by decide

/-- L8: `ANDWF 0x20,1,0`. -/
theorem test_andwf :
    stepsTo 16 0x1620 { State.reset with pc := 0x000100, w := 0x0F, data := [(0x020, 0xF0)] }
      (fun t => t.pc == 0x000102 && t.status.z == true && t.status.n == false &&
        t.ramAt 0x020 == 0x00) = true := by decide

/-- L9: `IORWF 0x20,1,0`. -/
theorem test_iorwf :
    stepsTo 16 0x1220 { State.reset with pc := 0x000100, w := 0x0F, data := [(0x020, 0xF0)] }
      (fun t => t.pc == 0x000102 && t.status.z == false && t.status.n == true &&
        t.ramAt 0x020 == 0xFF) = true := by decide

/-- L10: `XORWF 0x20,0,0`. -/
theorem test_xorwf :
    stepsTo 16 0x1820 { State.reset with pc := 0x000100, w := 0xFF, data := [(0x020, 0xFF)] }
      (fun t => t.pc == 0x000102 && t.w == 0x00 && t.status.z == true && t.status.n == false) = true := by decide

/-- L12: `COMF 0x20,0,0`. -/
theorem test_comf :
    stepsTo 16 0x1C20 { State.reset with pc := 0x000100, data := [] }
      (fun t => t.pc == 0x000102 && t.w == 0xFF && t.status.z == false && t.status.n == true) = true := by decide

/-- L15: `NEGF 0x20,0`. -/
theorem test_negf :
    stepsTo 16 0x6C20 { State.reset with pc := 0x000100, data := [(0x020, 0x80)] }
      (fun t => t.pc == 0x000102 && t.status.c == false && t.status.dc == true && t.status.z == false &&
        t.status.ov == true && t.status.n == true) = true := by decide

/-- L17: `RLCF 0x20,0,0`. -/
theorem test_rlcf :
    stepsTo 16 0x3420 { State.reset with
        pc := 0x000100, data := [(0x020, 0x40)], status := ⟨false, false, false, false, true⟩ }
      (fun t => t.pc == 0x000102 && t.w == 0x81 && t.status.c == false && t.status.z == false &&
        t.status.n == true) = true := by decide

/-- L20: `RRCF 0x20,0,0`. -/
theorem test_rrcf :
    stepsTo 16 0x3020 { State.reset with pc := 0x000100, data := [], status := ⟨false, false, false, false, true⟩ }
      (fun t => t.pc == 0x000102 && t.w == 0x80 && t.status.c == false && t.status.z == false &&
        t.status.n == true) = true := by decide

/-- L21: `RLNCF 0x20,1,0`. -/
theorem test_rlncf :
    stepsTo 16 0x4620 { State.reset with
        pc := 0x000100, data := [(0x020, 0x80)], status := ⟨false, false, false, false, false⟩ }
      (fun t => t.pc == 0x000102 && t.status.z == false && t.status.n == false &&
        t.ramAt 0x020 == 0x01) = true := by decide

/-- L23: `RRNCF 0x20,1,0`. -/
theorem test_rrncf :
    stepsTo 16 0x4220 { State.reset with pc := 0x000100, data := [(0x020, 0x01)] }
      (fun t => t.pc == 0x000102 && t.status.z == false && t.status.n == true &&
        t.ramAt 0x020 == 0x80) = true := by decide

/-- L26: `CPFSEQ 0x20,0`. -/
theorem test_cpfseq :
    stepsTo 16 0x6220 { State.reset with pc := 0x000100, w := 0x42, data := [(0x020, 0x43)] }
      (fun t => t.pc == 0x000102) = true := by decide

/-- L27: `CPFSGT 0x20,0`. -/
theorem test_cpfsgt :
    stepsTo 16 0x6420 { State.reset with pc := 0x000100, w := 0x7F, data := [(0x020, 0x80)] }
      (fun t => t.pc == 0x000104) = true := by decide

/-- L30: `CPFSLT 0x20,0`. -/
theorem test_cpfslt :
    stepsTo 16 0x6020 { State.reset with pc := 0x000100, w := 0x80, data := [(0x020, 0x7F)] }
      (fun t => t.pc == 0x000104) = true := by decide

/-- L32: `TSTFSZ 0x20,0`. -/
theorem test_tstfsz :
    stepsTo 16 0x6620 { State.reset with pc := 0x000100, data := [] }
      (fun t => t.pc == 0x000104) = true := by decide

/-- L36: `LFSR 2,0x3AB`. -/
theorem test_lfsr :
    stepsTo 32 0xF0ABEE23 { State.reset with pc := 0x000100 }
      (fun t => t.pc == 0x000104 && t.fsr2 == 0x3AB) = true := by decide

/-- B1: `BCF 0x20,7,0`. -/
theorem test_bcf :
    stepsTo 16 0x9E20 { State.reset with pc := 0x000100, data := [(0x020, 0xFF)] }
      (fun t => t.pc == 0x000102 && t.ramAt 0x020 == 0x7F) = true := by decide

/-- B4: `BSF 0x20,7,1`. -/
theorem test_bsf :
    stepsTo 16 0x8F20 { State.reset with pc := 0x000100, bsr := 0x2, data := [(0x220, 0x01)] }
      (fun t => t.pc == 0x000102 && t.ramAt 0x220 == 0x81) = true := by decide

/-- B5: `BTG 0x20,3,0`. -/
theorem test_btg :
    stepsTo 16 0x7620 { State.reset with pc := 0x000100, data := [(0x020, 0x08)] }
      (fun t => t.pc == 0x000102 && t.ramAt 0x020 == 0x00) = true := by decide

/-- B12: `BTFSC 0x20,4,0`. -/
theorem test_btfsc :
    stepsTo 16 0xB820 { State.reset with pc := 0x000100, data := [(0x020, 0xEF)] }
      (fun t => t.pc == 0x000104) = true := by decide

/-- B16: `BTFSS 0xD8,0,0`. -/
theorem test_btfss :
    stepsTo 16 0xA0D8 { State.reset with pc := 0x000100, status := ⟨false, false, false, false, true⟩ }
      (fun t => t.pc == 0x000104) = true := by decide

/-- E1: `BC n=5`. -/
theorem test_bc :
    stepsTo 16 0xE205 { State.reset with pc := 0x000100, status := ⟨false, false, false, false, true⟩ }
      (fun t => t.pc == 0x00010C) = true := by decide

/-- E4: `BNC n=-1`. -/
theorem test_bnc :
    stepsTo 16 0xE3FF { State.reset with pc := 0x000100, status := ⟨false, false, false, false, false⟩ }
      (fun t => t.pc == 0x000100) = true := by decide

/-- E5: `BZ n=127`. -/
theorem test_bz :
    stepsTo 16 0xE07F { State.reset with pc := 0x000100, status := ⟨false, false, true, false, false⟩ }
      (fun t => t.pc == 0x000200) = true := by decide

/-- E6: `BNZ n=-128`. -/
theorem test_bnz :
    stepsTo 16 0xE180 { State.reset with pc := 0x000100, status := ⟨false, false, false, false, false⟩ }
      (fun t => t.pc == 0x000002) = true := by decide

/-- E8: `BN n=0`. -/
theorem test_bn :
    stepsTo 16 0xE600 { State.reset with pc := 0x000100, status := ⟨true, false, false, false, false⟩ }
      (fun t => t.pc == 0x000102) = true := by decide

/-- E9: `BNN n=2`. -/
theorem test_bnn :
    stepsTo 16 0xE702 { State.reset with pc := 0x000100, status := ⟨true, false, false, false, false⟩ }
      (fun t => t.pc == 0x000102) = true := by decide

/-- E10: `BOV n=2`. -/
theorem test_bov :
    stepsTo 16 0xE402 { State.reset with pc := 0x000100, status := ⟨false, true, false, false, false⟩ }
      (fun t => t.pc == 0x000106) = true := by decide

/-- E11: `BNOV n=2`. -/
theorem test_bnov :
    stepsTo 16 0xE502 { State.reset with pc := 0x000100, status := ⟨false, true, false, false, false⟩ }
      (fun t => t.pc == 0x000102) = true := by decide

/-- E13: `BRA n=-1024`. -/
theorem test_bra :
    stepsTo 16 0xD400 { State.reset with pc := 0x001000 }
      (fun t => t.pc == 0x000802) = true := by decide

/-- E17: `GOTO 0x1FFFFE`. -/
theorem test_goto :
    stepsTo 32 0xFFFFEFFF { State.reset with pc := 0x000100 }
      (fun t => t.pc == 0x1FFFFE) = true := by decide

/-- E20: `CALL 0x002468,1`. -/
theorem test_call :
    stepsTo 32 0xF012ED34 { State.reset with
        pc := 0x000100, w := 0x11, bsr := 0x3, status := ⟨false, false, true, false, true⟩ }
      (fun t => t.pc == 0x002468 && t.sp == 1 && t.stackEntry 1 == 0x000104 && t.fast.ws == 0x11 &&
        t.fast.statuss.toByte == 0b00101 && t.fast.bsrs == 0x3) = true := by decide

/-- E24: `RCALL n=-2`. -/
theorem test_rcall :
    stepsTo 16 0xDFFE { State.reset with pc := 0x000200 }
      (fun t => t.pc == 0x0001FE && t.sp == 1 && t.stackEntry 1 == 0x000202) = true := by decide

/-- E26: `RETURN 1`. -/
theorem test_ret :
    stepsTo 16 0x13 (({ State.reset with
        pc := 0x000100, sp := 1, w := 0x00, status := ⟨false, false, true, false, false⟩, fast := ⟨0x99, ⟨true,
        false, false, false, false⟩, 0x04⟩ }).setStackEntry 1 0x000204)
      (fun t => t.pc == 0x000204 && t.w == 0x99 && t.status.z == false && t.status.n == true && t.bsr == 0x4 &&
        t.sp == 0) = true := by decide

/-- E28: `RETLW 0x5A`. -/
theorem test_retlw :
    stepsTo 16 0xC5A ((({ State.reset with
        pc := 0x000100, sp := 2 }).setStackEntry 1 0x000010).setStackEntry 2 0x000300)
      (fun t => t.pc == 0x000300 && t.w == 0x5A && t.sp == 1) = true := by decide

/-- E30: `RETFIE 1`. -/
theorem test_retfie :
    stepsTo 16 0x11 (({ State.reset with
        pc := 0x000100, sp := 1, isrLevel := [.low], intcon := .ofByte 0x80, rcon := .ofByte 0x9C, w := 0x00,
        status := ⟨false, false, false, false, false⟩, fast := ⟨0x77, ⟨false, false, false, false, true⟩,
        0x01⟩ }).setStackEntry 1 0x000200)
      (fun t => t.pc == 0x000200 && t.w == 0x77 && t.status.c == true && t.bsr == 0x1 && t.sp == 0 &&
        t.intcon.toByte == 0xC0 && t.isrLevel == []) = true := by decide

/-- E32: `PUSH`. -/
theorem test_push :
    stepsTo 16 0x5 { State.reset with pc := 0x000100 }
      (fun t => t.pc == 0x000102 && t.sp == 1 && t.stackEntry 1 == 0x000102) = true := by decide

/-- E33: `POP`. -/
theorem test_pop :
    stepsTo 16 0x6 ((({ State.reset with
        pc := 0x000100, sp := 2 }).setStackEntry 1 0x000010).setStackEntry 2 0x000020)
      (fun t => t.pc == 0x000102 && t.sp == 1) = true := by decide

/-- E35: `NOP`. -/
theorem test_nop :
    stepsTo 16 0x0 { State.reset with pc := 0x000100 }
      (fun t => t.pc == 0x000102) = true := by decide

/-- E36: `NOP (F-form) FABCh`. -/
theorem test_nopF :
    stepsTo 16 0xFABC { State.reset with pc := 0x000100 }
      (fun t => t.pc == 0x000102) = true := by decide

/-- E39: `CLRWDT`. -/
theorem test_clrwdt :
    stepsTo 16 0x4 { State.reset with pc := 0x000100, rcon := .ofByte 0x10 }
      (fun t => t.pc == 0x000102 && t.rcon.toByte == 0x1C) = true := by decide

/-- E40: `SLEEP`. -/
theorem test_sleep :
    stepsTo 16 0x3 { State.reset with pc := 0x000100 }
      (fun t => t.pc == 0x000102 && t.rcon.toByte == 0x18 && t.sleeping == true) = true := by decide

/-- Y4: `SUBFWB 0x20,0,0`. -/
theorem test_subfwb :
    stepsTo 16 0x5420 { State.reset with
        pc := 0x000100, w := 0x80, data := [(0x020, 0x01)], status := ⟨false, false, false, false, true⟩ }
      (fun t => t.pc == 0x000102 && t.w == 0x7F && t.status.c == true && t.status.dc == false &&
        t.status.z == false && t.status.ov == true && t.status.n == false) = true := by decide

/-- Y8: `DAW`. -/
theorem test_daw :
    stepsTo 16 0x7 { State.reset with pc := 0x000100, w := 0x21, status := ⟨false, false, false, true, true⟩ }
      (fun t => t.pc == 0x000102 && t.w == 0x87) = true := by decide

/-! ### Special cells, faults, interrupts -/

/-- X15: `MOVWF 0xEB,0`. -/
theorem test_plusw :
    stepsTo 16 0x6EEB { State.reset with pc := 0x000100, w := 0x02, fsr0 := 0x100 }
      (fun t => t.pc == 0x000102 && t.ramAt 0x102 == 0x02) = true := by decide

/-- X21: `MOVF 0xEF,0,0`. -/
theorem test_window_target :
    stepsTo 16 0x50EF { State.reset with pc := 0x000100, w := 0x05, fsr0 := 0xFEF }
      (fun t => t.pc == 0x000102 && t.w == 0x00 && t.status.z == true && t.status.n == false) = true := by decide

/-- X25: `MOVWF 0xEF,0`. -/
theorem test_indf_own_fsr :
    stepsTo 16 0x6EEF { State.reset with pc := 0x000100, w := 0x34, fsr0 := 0xFE9 }
      (fun t => t.pc == 0x000102 && t.fsr0 == 0xF34) = true := by decide

/-- X24: `MOVWF 0xEC,0`. -/
theorem test_own_fsr_stops :
    stopsWith 16 0x6EEC { State.reset with pc := 0x000100, w := 0x05, fsr0 := 0xFE9 }
      .indirectOnOwnFSR = true := by decide

/-- X27: `MOVF 0xF9,0,0`. -/
theorem test_pcl_read :
    stepsTo 16 0x50F9 { State.reset with pc := 0x001234, pclath := 0x77 }
      (fun t => t.pc == 0x001236 && t.w == 0x36 && t.status.z == false && t.status.n == false &&
        t.pclath == 0x12) = true := by decide

/-- X28: `MOVWF 0xF9,0`. -/
theorem test_pcl_write :
    stepsTo 16 0x6EF9 { State.reset with pc := 0x000100, w := 0x41, pclath := 0x02, pclatu := 0x00 }
      (fun t => t.pc == 0x000240) = true := by decide

/-- X33: `MOVWF 0xFE,0`. -/
theorem test_tosh_write :
    stepsTo 16 0x6EFE (({ State.reset with pc := 0x000100, w := 0xAB, sp := 1 }).setStackEntry 1 0x000200)
      (fun t => t.pc == 0x000102 && t.stackEntry 1 == 0x00AB00) = true := by decide

/-- X35: `MOVF 0xFC,0,0`. -/
theorem test_stkptr_read :
    stepsTo 16 0x50FC (((({ State.reset with
        pc := 0x000100, sp := 3 }).setStackEntry 1 0x000002).setStackEntry 2 0x000004).setStackEntry 3 0x000006)
      (fun t => t.pc == 0x000102 && t.w == 0x03 && t.status.z == false && t.status.n == false) = true := by decide

/-- X36: `MOVWF 0xF8,0`. -/
theorem test_tblptru_write :
    stepsTo 16 0x6EF8 { State.reset with pc := 0x000100, w := 0xFF }
      (fun t => t.pc == 0x000102 && t.tblptr == 0x3F0000) = true := by decide

/-- X37: `MOVWF 0xA7,0`. -/
theorem test_eecon2_stops :
    stopsWith 16 0x6EA7 { State.reset with pc := 0x000100, w := 0x55 }
      .selfProgramming = true := by decide

/-- A41: `ADDWF 0xD8,1,0`. -/
theorem test_status_destination :
    stepsTo 16 0x26D8 { State.reset with pc := 0x000100, w := 0xFF, status := ⟨false, false, false, false, true⟩ }
      (fun t => t.pc == 0x000102 && t.status.c == true && t.status.dc == true && t.status.z == true &&
        t.status.ov == false && t.status.n == false) = true := by decide

/-- A46: `DECFSZ 0xD8,1,0`. -/
theorem test_status_data :
    stepsTo 16 0x2ED8 { State.reset with pc := 0x000100, status := ⟨false, false, false, false, true⟩ }
      (fun t => t.pc == 0x000104 && t.status.c == false) = true := by decide

/-- E21: `CALL 0x002468,0`. -/
theorem test_stack_overflow :
    stopsWith 32 0xF012EC34 (({ State.reset with pc := 0x000100, sp := 30 }).setStackEntry 30 0x000010)
      .stackOverflow = true := by decide

/-- E27: `RETURN 0`. -/
theorem test_stack_underflow :
    stopsWith 16 0x12 { State.reset with pc := 0x000100 }
      .stackUnderflow = true := by decide

/-- T16: `MOVFF 0x020,0xFFF`. -/
theorem test_movff_forbidden :
    stopsWith 32 0xFFFFC020 { State.reset with pc := 0x000100, data := [(0x020, 0x10)] }
      .movffForbiddenDestination = true := by decide

/-- T28: `TBLRD+*`. -/
theorem test_table_outside :
    stopsWith 16 0xB { State.reset with pc := 0x000100, tblptr := 0x007FFF }
      .tableReadOutside = true := by decide

/-- E47: `illegal EE30h`. -/
theorem test_illegal_word :
    stopsWith 32 0xF000EE30 { State.reset with pc := 0x000100 }
      .illegalInstruction = true := by decide

/-- E18: `GOTO ? (second word 0012h)`. -/
theorem test_malformed_second :
    stopsWith 32 0x12EF34 { State.reset with pc := 0x000100 }
      .malformedSecondWord = true := by decide

/-- E49: `GOTO 0x000000`. -/
theorem test_fetch_outside :
    stopsWith 32 0xF000EF00 { State.reset with pc := 0x007FFE }
      .fetchOutsideProgram = true := by decide

/-- E41: `NOP`. -/
theorem test_asleep :
    stepsTo 16 0x0 { State.reset with pc := 0x000100, sleeping := true }
      (fun t => t.pc == 0x000100) = true := by decide

/-- I1: `NOP (not executed)`. -/
theorem test_interrupt_high :
    stepsTo 16 0x0 { State.reset with
        pc := 0x000200, intcon := .ofByte 0x92, w := 0x3C, bsr := 0x2, status := ⟨false, false, true, false, false⟩ }
      (fun t => t.pc == 0x000008 && t.sp == 1 && t.stackEntry 1 == 0x000200 && t.fast.ws == 0x3C &&
        t.fast.statuss.toByte == 0b00100 && t.fast.bsrs == 0x2 && t.intcon.toByte == 0x12 &&
        t.isrLevel == [.high]) = true := by decide

/-- I6: `NOP (not executed)`. -/
theorem test_interrupt_low :
    stepsTo 16 0x0 { State.reset with pc := 0x000200, rcon := .ofByte 0x9C, intcon := .ofByte 0xE4, intcon2 := 0xF1 }
      (fun t => t.pc == 0x000018 && t.sp == 1 && t.stackEntry 1 == 0x000200 && t.fast.bsrs == 0x0 &&
        t.intcon.toByte == 0xA4 && t.isrLevel == [.low]) = true := by decide

/-- I8: `NOP (not executed)`. -/
theorem test_interrupt_nested :
    stepsTo 16 0x0 (({ State.reset with
        pc := 0x000018, rcon := .ofByte 0x9C, intcon := .ofByte 0x92, sp := 1,
        isrLevel := [.low] }).setStackEntry 1 0x000200)
      (fun t => t.pc == 0x000008 && t.sp == 2 && t.stackEntry 2 == 0x000018 && t.fast.bsrs == 0x0 &&
        t.intcon.toByte == 0x12 && t.isrLevel == [.high, .low]) = true := by decide

/-- I10: `NOP (not executed)`. -/
theorem test_interrupt_wakes :
    stepsTo 16 0x0 { State.reset with pc := 0x000202, intcon := .ofByte 0x92, sleeping := true }
      (fun t => t.pc == 0x000008 && t.sp == 1 && t.stackEntry 1 == 0x000202 && t.fast.bsrs == 0x0 &&
        t.intcon.toByte == 0x12 && t.sleeping == false && t.isrLevel == [.high]) = true := by decide

/-- R261, by hand: n = 2 with N = 1 goes to 100h + 2 + 4. -/
theorem test_bn_taken :
    stepsTo 16 0xE602 { State.reset with pc := 0x000100, status := ⟨true, false, false, false, false⟩ }
      (fun t => t.pc == 0x000106) = true := by decide

/-- R351, R352, from R70's table: RESET goes to 000000h with the stack empty, BSR 0, INTCON2 F5h and IPEN 0. -/
theorem test_reset :
    stepsTo 16 0x00FF { State.reset with pc := 0x001234, sp := 2, bsr := 3, intcon2 := 0x00, rcon := Rcon.ofByte 0x9C }
      (fun t => t.pc == 0 && t.sp == 0 && t.bsr == 0 && t.intcon2 == 0xF5 && t.rcon.ipen == false) = true := by decide

/-! ### The register map (R60, spec/95_test_vectors.md) -/

/-- Of the 128 addresses F80h to FFFh, 27 are unimplemented and 15 are windows, no address has two rows. -/
theorem test_map_counts :
    ((List.range 128).filter (fun n => (sfrAt (BitVec.ofNat 12 (0xF80 + n))).isNone)).length = 27 ∧
      ((List.range 128).filter (fun n => (windowAt (BitVec.ofNat 12 (0xF80 + n))).isSome)).length = 15 ∧
      (sfrMap.map (·.1)).Nodup := by decide

/-- The opcode table of the model has the 76 rows, and a constructor's mnemonic is a row's. -/
theorem test_table_rows : opcodeRows.length = 76 := by decide

/-! ### How the host's word is numbered and placed -/

/-- Bits 31 to 16 are the second word; bits above `nbits` are 0. -/
theorem test_decodeTableWord :
    decodeTableWord 16 0x2720 = some (.addwf 0x20 true true) ∧
      decodeTableWord 32 0xF012EC34 = some (.call 0x01234 false) ∧
      decodeTableWord 16 0xF012EC34 = none := by decide

/-- From the reset state the very next step runs the placed instruction. -/
theorem test_withFetchWord : stepsTo 16 0x0E5A State.reset (fun t => t.w == 0x5A && t.pc == 2) = true := by decide

/-! ### Witnesses: states and operands that meet the hypotheses of the statements -/

theorem witness_DecodeOfEncode :
    (Instr.lfsr 2 0xFFF).wellFormedOn false = true ∧ (Instr.daw).wellFormedOn true = true := by decide

theorem witness_EncodeOfDecode :
    decodeOn false [0x23, 0xEE, 0xAB, 0xF0, 0x77] = .ok (.lfsr 2 0x3AB) [0x77] := by decide

theorem witness_DecoderFollowsOpcodeTable :
    (∃ r ∈ rowsLogic, r.owns 0xEE2F#16 = true) ∧ ∀ r ∈ opcodeRows, r.owns 0xEE30#16 = false := by decide

theorem witness_FirstWordTellsLength :
    (Instr.goto 0xFFFFF).wellFormed = true ∧ (Instr.nopF 0xFFF).wellFormed = true := by decide

/-- The last form of each list. -/
theorem witness_FormatFields : 20 < 21 ∧ 4 < 5 ∧ (aluForms 0 false false)[20]?.isSome = true := by decide

/-- A quiet state whose pc is at MOVLW 5Ah. -/
def quietState : State := { State.reset with prog := [(0, 0x5A), (1, 0x0E)] }

theorem witness_StepRunsDecodedInstruction :
    boundary quietState = .run quietState ∧ quietState.wakeIfRequested.sleeping = false ∧
      pendingInterrupt quietState.wakeIfRequested = none ∧ Quiet quietState ∧
      decode (fetchBytes quietState) = .ok (.movlw 0x5A) [0xFF, 0xFF] := by
  refine ⟨rfl, by decide, by decide, ⟨rfl, rfl, by decide⟩, by decide⟩

theorem witness_FetchFaults :
    (Quiet { State.reset with pc := 0x8000 } ∧ Config.progMemBytes ≤ (0x8000#21).toNat + 1) ∧
      (let s := { State.reset with pc := 0x7FFE, prog := [(0x7FFE, 0x34), (0x7FFF, 0xEF)] }
       Quiet s ∧ s.pc.toNat + 1 < Config.progMemBytes ∧ Config.progMemBytes ≤ s.pc.toNat + 3 ∧
        firstOfTwo (s.progWord s.pc.toNat) = true) ∧
      (let s := { State.reset with prog := [(0, 0x01), (1, 0x00)] }
       Quiet s ∧ decode (fetchBytes s) = .illegalInstruction) ∧
      (let s := { State.reset with prog := [(0, 0x34), (1, 0xEF), (2, 0x12), (3, 0x00)] }
       Quiet s ∧ decode (fetchBytes s) = .malformedSecondWord) := by
  refine ⟨⟨⟨rfl, rfl, ?_⟩, ?_⟩, ⟨⟨rfl, rfl, ?_⟩, ?_, ?_, ?_⟩, ⟨⟨rfl, rfl, ?_⟩, ?_⟩, ⟨rfl, rfl, ?_⟩, ?_⟩ <;> decide

/-- The last pc from which 2 further on is inside its range (NoOperation's hypotheses too), and the first and last word that
is not MOVLB. -/
theorem witness_LoadLiteral :
    ({ State.reset with pc := 0x1FFFFC }).pc.getLsbD 0 = false ∧ ({ State.reset with pc := 0x1FFFFC }).pc.toNat + 2 < 2 ^ 21 ∧
      0x10 ≤ (0x10#8).toNat ∧ 0x10 ≤ (0xFF#8).toNat := by decide

theorem witness_DecimalAdjust :
    (0x99#8).toNat / 16 ≤ 9 ∧ (0x99#8).toNat % 16 ≤ 9 ∧ (0x00#8).toNat / 16 ≤ 9 ∧ (0x00#8).toNat % 16 ≤ 9 := by decide

/-- FSR0 at the last byte of RAM, one entry on the return stack. -/
def fileState : State := { State.reset with fsr0 := 0x5FF, sp := 1, bsr := 0xF }

/-- The hypothesis of FileArithmetic, FileLogic, FileRotates, NegateAndBitChange and CountAndSkip: a plain byte, a stepping
window, the top of a stack that is not empty, the register page through BSR, EECON2 only read. -/
theorem witness_FileOk :
    FileOk 0x7F true false fileState ∧ FileOk 0xEE true false fileState ∧ FileOk 0xFF true false fileState ∧
      FileOk 0xD8 true true fileState ∧ FileOk 0xA7 false false fileState := by
  refine ⟨⟨readable_of ?_ ?_, fun _ => ⟨readable_of ?_ ?_, ?_⟩⟩, ⟨readable_of ?_ ?_, fun _ => ⟨readable_of ?_ ?_, ?_⟩⟩,
    ⟨readable_of ?_ ?_, fun _ => ⟨readable_of ?_ ?_, ?_⟩⟩, ⟨readable_of ?_ ?_, fun _ => ⟨readable_of ?_ ?_, ?_⟩⟩,
    ⟨readable_of ?_ ?_, fun h => (by cases h)⟩⟩ <;> decide

/-- The hypothesis of StoreToFile. -/
theorem witness_Writable :
    Writable (ea 0x7F false fileState) fileState ∧ Writable (ea 0xEE false fileState) fileState ∧
      Writable (ea 0xFD false fileState) fileState := by
  refine ⟨⟨readable_of ?_ ?_, ?_⟩, ⟨readable_of ?_ ?_, ?_⟩, readable_of ?_ ?_, ?_⟩ <;> decide

/-- The hypothesis of CompareAndTest and MultiplyFile. -/
theorem witness_Readable :
    Readable (ea 0x80 false fileState) fileState ∧ Readable (ea 0xEC false fileState) fileState ∧
      Readable (ea 0xA7 false fileState) fileState := by
  refine ⟨readable_of ?_ ?_, readable_of ?_ ?_, readable_of ?_ ?_⟩ <;> decide

theorem witness_MoveFileToFile :
    MovffOk 0xFEE 0xFE8 fileState ∧ MovffOk 0xFFF 0x5FF fileState ∧
      (0xFFF#12 : DAddr) ∈ [0xFF9#12, 0xFFD#12, 0xFFE#12, 0xFFF#12] ∧
      (0x020#12 : DAddr) ∉ [0xFF9#12, 0xFFD#12, 0xFFE#12, 0xFFF#12] := by
  refine ⟨⟨?_, ?_, readable_of ?_ ?_, readable_of ?_ ?_, ?_⟩, ⟨?_, ?_, readable_of ?_ ?_, readable_of ?_ ?_, ?_⟩, ?_, ?_⟩ <;>
    decide

/-- The last byte of program memory, the first address outside it, and the pointer's last value. -/
theorem witness_TableReads :
    (0x7FFF#22).toNat < Config.progMemBytes ∧ (BitVec.ofNat 22 ((0x7FFE#22).toNat + 1)).toNat < Config.progMemBytes ∧
      (BitVec.ofNat 22 ((0x3FFFFF#22).toNat + 1)).toNat < Config.progMemBytes ∧
      Config.progMemBytes ≤ (0x8000#22).toNat ∧ Config.progMemBytes ≤ (BitVec.ofNat 22 ((0x7FFF#22).toNat + 1)).toNat := by
  decide

theorem witness_CallsAndPush :
    ({ State.reset with sp := 29 }).sp.toNat < 30 ∧ 30 ≤ ({ State.reset with sp := 30 }).sp.toNat ∧
      30 ≤ ({ State.reset with sp := 31 }).sp.toNat := by decide

/-- The hypotheses of ReturnsAndPop and ReturnFromInterrupt. -/
theorem witness_Returns :
    ({ State.reset with sp := 1 }).sp ≠ 0#5 ∧ ({ State.reset with sp := 31 }).sp ≠ 0#5 ∧ State.reset.sp = 0#5 := by decide

theorem witness_NoOperation :
    Instr.nopF 0xFFF ∈ [Instr.nop, .nopF 0xFFF] ∧ (0xF0#8).extractLsb' 4 4 = 0b1111#4 ∧
      (0xFF#8).extractLsb' 4 4 = 0b1111#4 := by decide

theorem witness_EffectiveAddress :
    (0x7F#8).toNat < 0x80 ∧ 0x80 ≤ (0x80#8).toNat ∧ ({ State.reset with bsr := 0xF }).bsr = 0xF#4 := by decide

/-- A pointer at a window, beside one, and at its own bytes. -/
theorem witness_IndirectWindows :
    (let s := { State.reset with fsr0 := 0xFEF, fsr1 := 0xFE8, fsr2 := 0xFDA }
     (0xFEB ≤ (s.fsr .f0).toNat ∧ (s.fsr .f0).toNat ≤ 0xFEF) ∧ s.fsr .f2 = (fsrBytes .f2).2 ∧
      BitVec.ofNat 12 ((s.fsr .f2).toNat + 4095) = (fsrBytes .f2).1 ∧ windowAt (s.fsr .f1) = none) := by decide

theorem witness_DataReadMap :
    (0x5FF#12 : DAddr).toNat ≤ Config.gprTop ∧ Config.gprTop < (0x600#12 : DAddr).toNat ∧ sfrAt 0x600 = none ∧
      Config.gprTop < (0xFD4#12 : DAddr).toNat ∧ sfrAt 0xFD4 = none ∧ cellAt 0xF80 = .sfr (.periph .porta) ∧
      cellAt 0xFD5 = .sfr (.periph .t0con) ∧ (some 0xFFA#12 : Target) ≠ some 0xFF9#12 ∧
      (match cellAt 0xFFA with
        | .sfr (.periph _) => false
        | _ => true) = true := by decide

/-- The hypotheses of DataWriteMap. -/
theorem witness_DataWriteMap :
    ({ State.reset with sp := 31 }).sp ≠ 0#5 ∧ Config.gprTop < (0xF7F#12 : DAddr).toNat ∧ sfrAt 0xF7F = none := by decide

theorem witness_RamReadAfterWrite :
    Memory.wf Config.dataFill [(0x5FF, 0x12)] ∧ (0x5FF#12 : DAddr).toNat ≤ Config.gprTop ∧
      (0x000#12 : DAddr) ≠ 0x5FF#12 ∧ (0x000#12 : DAddr).toNat ≤ Config.gprTop := by decide

/-- STATUS as a direct operand, and through INDF0. -/
theorem witness_StatusAsDestination :
    (target (ea 0xD8 false State.reset) State.reset = some 0xFD8#12 ∧ Resolvable (ea 0xD8 false State.reset) State.reset) ∧
      (let s := { State.reset with fsr0 := 0xFD8 }
       target (ea 0xEF false s) s = some 0xFD8#12 ∧ Resolvable (ea 0xEF false s) s) ∧
      ¬ listsNoFlag (.clrf 0xD8 false) := by
  refine ⟨⟨?_, ownFsrHit_eq_false.1 ?_⟩, ⟨?_, ownFsrHit_eq_false.1 ?_⟩, ?_⟩
  · decide
  · decide
  · decide
  · decide
  · simp [listsNoFlag, flagsListed, Status.zero]

theorem witness_ReadingFormsFrame :
    (∃ t, exec (.addwf 0xEE false false) fileState = .next t) ∧ (∃ t, exec (.movf 0xF9 false false) fileState = .next t) ∧
      (∃ t, exec (.btfss 0x7F 7 false) fileState = .next t) ∧ ∃ t, exec (.mulwf 0xFF false) fileState = .next t := by
  refine ⟨exists_next_of_completes ?_, exists_next_of_completes ?_, exists_next_of_completes ?_,
    exists_next_of_completes ?_⟩ <;> decide

theorem witness_StoringFormsFrame :
    (∃ t, exec (.addwf 0xEE true false) fileState = .next t) ∧ (∃ t, exec (.negf 0x7F false) fileState = .next t) ∧
      (∃ t, exec (.movwf 0xFF false) fileState = .next t) ∧
      target (ea 0x7F false fileState) fileState ≠ some 0xFD8#12 ∧ ¬ listsNoFlag (.addwf 0xD8 true false) := by
  refine ⟨exists_next_of_completes ?_, exists_next_of_completes ?_, exists_next_of_completes ?_, ?_, ?_⟩
  · decide
  · decide
  · decide
  · decide
  · simp [listsNoFlag, flagsListed, Status.zero]

theorem witness_MovffFrame :
    (∃ t, exec (.movff 0xFEE 0x020) fileState = .next t) ∧
      (let s := (afterRead 0xFEE fileState).advance 4
       target 0x020 s ≠ some 0xFD8#12 ∧ target 0x020 s ≠ some 0xFF9#12 ∧ target 0x020 s ≠ some 0x021#12) := by
  refine ⟨exists_next_of_completes ?_, ?_⟩ <;> decide

theorem witness_FileOperandFaults :
    (let s := { State.reset with fsr0 := 0xFE9 }
     ¬ Resolvable (ea 0xEE false s) s) ∧
      (Resolvable (ea 0xFF false State.reset) State.reset ∧
        target (ea 0xFF false State.reset) State.reset ∈ tosTargets ∧ State.reset.sp = 0#5) ∧
      (Resolvable (ea 0xA7 false State.reset) State.reset ∧
        target (ea 0xA7 false State.reset) State.reset = some 0xFA7#12) := by
  refine ⟨fun h => ?_, ⟨ownFsrHit_eq_false.1 ?_, ?_, ?_⟩, ownFsrHit_eq_false.1 ?_, ?_⟩
  · exact absurd (ownFsrHit_eq_false.2 h) (by decide)
  all_goals decide

/-- The hypotheses of FileOperandFaults about MOVFF, each of its five cases. -/
theorem witness_FileOperandFaults_movff :
    ((0x020#12 : DAddr) ∉ [0xFF9#12, 0xFFD#12, 0xFFE#12, 0xFFF#12] ∧ (0xFEE#12 : DAddr) ≠ 0xFF9#12) ∧
      (let s := { State.reset with fsr0 := 0xFE9 }
       ¬ Resolvable 0xFEE s ∧ Readable 0x020 s ∧ ¬ Resolvable 0xFEE ((afterRead 0x020 s).advance 4)) ∧
      (Resolvable 0xFFF State.reset ∧ target 0xFFF State.reset ∈ tosTargets ∧ State.reset.sp = 0#5) ∧
      (let s := { State.reset with fsr0 := 0xFFF }
       Readable 0x020 s ∧ Resolvable 0xFEF ((afterRead 0x020 s).advance 4) ∧
        target 0xFEF ((afterRead 0x020 s).advance 4) ∈ tosTargets ∧ s.sp = 0#5) ∧
      (Readable 0x020 State.reset ∧ Resolvable 0xFA7 ((afterRead 0x020 State.reset).advance 4) ∧
        target 0xFA7 ((afterRead 0x020 State.reset).advance 4) = some 0xFA7#12) := by
  refine ⟨?_, ⟨fun h => ?_, readable_of ?_ ?_, fun h => ?_⟩, ⟨ownFsrHit_eq_false.1 ?_, ?_, ?_⟩,
    ⟨readable_of ?_ ?_, ownFsrHit_eq_false.1 ?_, ?_, ?_⟩, readable_of ?_ ?_, ownFsrHit_eq_false.1 ?_, ?_⟩
  · decide
  · exact absurd (ownFsrHit_eq_false.2 h) (by decide)
  · decide
  · decide
  · exact absurd (ownFsrHit_eq_false.2 h) (by decide)
  all_goals decide

/-- Each fault an instruction can raise is raised. -/
theorem witness_FaultCauses :
    exec .push { State.reset with sp := 30 } = .fault .stackOverflow ∧
      exec .pop State.reset = .fault .stackUnderflow ∧
      exec (.movf 0xFD false false) State.reset = .fault .stackEmptyAccess ∧
      exec (.movff 0x020 0xFEE) { State.reset with fsr0 := 0xFFF } = .fault .stackEmptyAccess ∧
      exec (.movwf 0xEC false) { State.reset with fsr0 := 0xFE9 } = .fault .indirectOnOwnFSR ∧
      exec (.movff 0xFE6 0x020) { State.reset with fsr1 := 0xFE1 } = .fault .indirectOnOwnFSR ∧
      exec .tblrdPreInc { State.reset with tblptr := 0x7FFF } = .fault .tableReadOutside ∧
      exec .tblrdPostDec { State.reset with tblptr := 0x8000 } = .fault .tableReadOutside ∧
      exec (.bsf 0xA7 0 false) State.reset = .fault .selfProgramming ∧
      exec (.movff 0x020 0xFFE) State.reset = .fault .movffForbiddenDestination ∧
      exec (.movff 0xFF9 0x020) State.reset = .fault .movffPclSource ∧
      exec (.lfsr 3 0) State.reset = .fault .illegalInstruction := by
  refine ⟨exec_fault_of_stops ?_, exec_fault_of_stops ?_, exec_fault_of_stops ?_, exec_fault_of_stops ?_,
    exec_fault_of_stops ?_, exec_fault_of_stops ?_, exec_fault_of_stops ?_, exec_fault_of_stops ?_, exec_fault_of_stops ?_,
    exec_fault_of_stops ?_, exec_fault_of_stops ?_, exec_fault_of_stops ?_⟩ <;> decide

theorem witness_FlagsChangeOnlyAsListed :
    (∃ t, exec (.clrf 0xD8 false) fileState = .next t) ∧ writtenAddress (.clrf 0xD8 false) fileState = some 0xFD8#12 ∧
      ¬ listsNoFlag (.clrf 0xD8 false) ∧ (∃ t, exec (.ret false) fileState = .next t) ∧
      writtenAddress (.ret false) fileState ≠ some 0xFD8#12 := by
  refine ⟨exists_next_of_completes ?_, ?_, ?_, exists_next_of_completes ?_, ?_⟩
  · decide
  · decide
  · simp [listsNoFlag, flagsListed, Status.zero]
  · decide
  · decide

theorem witness_PcAdvance :
    (∃ t, exec (.movff 0x020 0x021) fileState = .next t) ∧ transfers (.movff 0x020 0x021) = false ∧
      writtenAddress (.movff 0x020 0x021) fileState ≠ some 0xFF9#12 ∧ cycleClass (.movff 0x020 0x021) ≠ .skip ∧
      (∃ t, exec (.incfsz 0x20 true false) fileState = .next t) ∧ transfers (.incfsz 0x20 true false) = false ∧
      writtenAddress (.incfsz 0x20 true false) fileState ≠ some 0xFF9#12 ∧
      cycleClass (.incfsz 0x20 true false) = .skip := by
  refine ⟨exists_next_of_completes ?_, ?_, ?_, ?_, exists_next_of_completes ?_, ?_, ?_, ?_⟩ <;> decide

/-- The hypothesis of ProgramMemoryImmutable, and that of StepKeepsInvariant about the step. -/
theorem witness_step_next : ∃ t, step quietState = .next t := ⟨_, rfl⟩

theorem witness_GlobalEnableStaysClear :
    State.reset.intcon.gie = false ∧ (∃ t, exec (.bsf 0xF2 4 true) fileState = .next t) ∧
      fileState.intcon.gie = false ∧ (∃ t, exec (.bsf 0xF0 4 true) fileState = .next t) ∧
      writtenAddress (.bsf 0xF0 4 true) fileState ≠ some 0xFF2#12 := by
  refine ⟨?_, exists_next_of_completes ?_, ?_, exists_next_of_completes ?_, ?_⟩ <;> decide

/-- The hypotheses of GlobalEnableStaysClear about a step: a sleeping core with a request that bit 7 keeps from being taken
runs MOVLW. -/
theorem witness_GlobalEnableStaysClear_step :
    (let s := { quietState with sleeping := true, intcon := Intcon.ofByte 0x12 }
     (∃ t, step s = .next t) ∧ s.intcon.gie = false ∧
      ∀ s1 i rest, boundary s = .run s1 → s1.wakeIfRequested.sleeping = false →
        decode (fetchBytes s1.wakeIfRequested) = .ok i rest →
          (∀ b, i ≠ .retfie b) ∧ writtenAddress i s1.wakeIfRequested ≠ some 0xFF2#12) := by
  refine ⟨⟨_, rfl⟩, rfl, fun s1 i rest hb _ hd => ?_⟩
  cases hb
  have hd' : decode (fetchBytes ({ quietState with sleeping := true, intcon := Intcon.ofByte 0x12 }).wakeIfRequested) =
      .ok (.movlw 0x5A) [0xFF, 0xFF] := by decide
  rw [hd'] at hd
  cases hd
  exact ⟨fun b => by simp, by simp [writtenAddress, destination]⟩

/-- INT0 requested and enabled, with and without room on the stack; a low-priority Timer0 request. -/
theorem witness_InterruptEntry :
    (let s := { State.reset with intcon := Intcon.ofByte 0x92, sp := 29 }
     boundary s = .run s ∧ pendingInterrupt s = some .high ∧ s.sp.toNat < 30) ∧
      (let s := { State.reset with intcon := Intcon.ofByte 0xE4, intcon2 := 0xF1, rcon := Rcon.ofByte 0x9C }
       boundary s = .run s ∧ pendingInterrupt s = some .low ∧ s.sp.toNat < 30) ∧
      (let s := { State.reset with intcon := Intcon.ofByte 0x92, sp := 30 }
       boundary s = .run s ∧ pendingInterrupt s = some .high ∧ 30 ≤ s.sp.toNat) := by
  refine ⟨⟨rfl, ?_, ?_⟩, ⟨rfl, ?_, ?_⟩, rfl, ?_, ?_⟩ <;> decide

theorem witness_InterruptRoundTrip :
    (let s := { State.reset with intcon := Intcon.ofByte 0x92, pc := 0x200 }
     (∃ t, takeInterrupt .high s = .ok t) ∧ s.pc.getLsbD 0 = false ∧ s.intcon = s.intcon.setEnable .high true) ∧
      (let s := { State.reset with intcon := Intcon.ofByte 0xE4, pc := 0x200 }
       (∃ t, takeInterrupt .low s = .ok t) ∧ s.pc.getLsbD 0 = false ∧ s.intcon = s.intcon.setEnable .low true) := by
  refine ⟨⟨⟨_, takeInterrupt_ok_iff.2 ⟨?_, rfl⟩⟩, ?_, ?_⟩, ⟨_, takeInterrupt_ok_iff.2 ⟨?_, rfl⟩⟩, ?_, ?_⟩ <;> decide

/-- Asleep with no request; asleep with a request that the clear global enable bit keeps from being taken. -/
theorem witness_SleepAndWake :
    (let s := { State.reset with sleeping := true }
     boundary s = .run s ∧ s.sleeping = true ∧ ∀ r ∈ coreRows ++ periphRows, ¬ r.requests s) ∧
      (let s := { State.reset with sleeping := true, intcon := Intcon.ofByte 0x12, prog := [(0, 0x5A), (1, 0x0E)] }
       boundary s = .run s ∧ s.sleeping = true ∧ (∃ r ∈ coreRows ++ periphRows, r.requests s) ∧
        pendingInterrupt s = none ∧ decode (fetchBytes s) = .ok (.movlw 0x5A) [0xFF, 0xFF]) := by
  unfold IrqRow.requests
  refine ⟨⟨rfl, rfl, ?_⟩, rfl, rfl, ?_, ?_, ?_⟩ <;> decide

theorem witness_EnvironmentMoves :
    ({ State.reset with env := [{ int0if := true, rcif := some true }] }).env = { int0if := true, rcif := some true } :: [] ∧
      ({ int0if := true, rcif := some true } : EnvMove).reset = none ∧
      ({ int0if := true, rcif := some true } : EnvMove).wdtTimeout = false := by decide

theorem witness_EnvironmentResets :
    ({ reset := some .mclr } : EnvMove).reset = some .mclr ∧ ({ reset := some .powerOn } : EnvMove).reset = some .powerOn ∧
      ({ wdtTimeout := true } : EnvMove).reset = none ∧ ({ wdtTimeout := true } : EnvMove).wdtTimeout = true ∧
      State.reset.sleeping = false ∧ ({ State.reset with sleeping := true }).sleeping = true := by decide

/-- A state with the invariant: a byte of RAM, a peripheral's byte, two program bytes. -/
theorem witness_StepKeepsInvariant :
    ({ quietState with data := [(0x5FF, 0x12), (0xF81, 0x34)], w := 0x11, intcon3 := 0xDB }).Inv := by
  refine ⟨?_, ?_, ?_, ?_, ?_, ?_, ?_, ?_, ?_, ?_, ?_⟩ <;> decide

end Sys2Proof.Tests.Slice0
end

section
/-! Proofs of the encoding family: the length of an instruction and the fields of the formats. -/

namespace Sys2Proof

/-! ### The first words of two-word instructions -/

/-- The forms by which R120 tells a two-word instruction from its first word: MOVFF, CALL, GOTO, LFSR. -/
def TwoWordForm (x : IWord) : Prop :=
  x.extractLsb' 12 4 = 0b1100#4 ∨ x.extractLsb' 9 7 = 0b1110110#7 ∨ x.extractLsb' 8 8 = 0b11101111#8 ∨
    x.extractLsb' 6 10 = 0b1110111000#10

/-- A field of a word that lies in its high byte. -/
theorem extractLsb'_mkWord_of_le (hi lo : Byte) {k : Nat} (n : Nat) (h : 8 ≤ k) :
    (mkWord hi lo).extractLsb' k n = hi.extractLsb' (k - 8) n :=
  BitVec.extractLsb'_append_eq_of_le h

/-- Bits 15:6 of a word: its high byte and the top two bits of its low byte. -/
theorem extractLsb'_six_mkWord (hi lo : Byte) : (mkWord hi lo).extractLsb' 6 10 = hi ++ lo.extractLsb' 6 2 := by
  have hlo : (mkWord hi lo).extractLsb' 6 2 = lo.extractLsb' 6 2 :=
    BitVec.extractLsb'_append_eq_of_add_le (by decide)
  have hhi : (mkWord hi lo).extractLsb' (6 + 2) 8 = hi := hi_mkWord hi lo
  have hjoin := BitVec.extractLsb'_append_extractLsb'_eq_extractLsb' (x := mkWord hi lo)
    (start₁ := 6) (len₁ := 2) (len₂ := 8) rfl
  rw [← hjoin, hhi, hlo]

theorem call_bits_iff (hi : Byte) :
    hi.extractLsb' 1 7 = 0b1110110#7 ↔
      hi.extractLsb' 4 4 = 0xE#4 ∧ (hi.extractLsb' 0 4 = 0xC#4 ∨ hi.extractLsb' 0 4 = 0xD#4) := by
  revert hi; decide

theorem goto_bits_iff (hi : Byte) :
    hi = 0b11101111#8 ↔ hi.extractLsb' 4 4 = 0xE#4 ∧ hi.extractLsb' 0 4 = 0xF#4 := by
  revert hi; decide

theorem lfsr_bits_iff (hi : Byte) (y : BitVec 2) :
    hi ++ y = 0b1110111000#10 ↔ hi.extractLsb' 4 4 = 0xE#4 ∧ hi.extractLsb' 0 4 = 0xE#4 ∧ y = 0#2 := by
  revert hi y; decide

/-- The same forms by the nibbles of the high byte, as the opcode map of R141 is read. -/
theorem twoWordForm_iff (x : IWord) :
    TwoWordForm x ↔
      x.hi.extractLsb' 4 4 = 0xC#4 ∨
        (x.hi.extractLsb' 4 4 = 0xE#4 ∧
          (x.hi.extractLsb' 0 4 = 0xC#4 ∨ x.hi.extractLsb' 0 4 = 0xD#4 ∨ x.hi.extractLsb' 0 4 = 0xF#4 ∨
            (x.hi.extractLsb' 0 4 = 0xE#4 ∧ x.lo.extractLsb' 6 2 = 0#2))) := by
  obtain ⟨hi, lo, rfl⟩ : ∃ hi lo, x = mkWord hi lo := ⟨x.hi, x.lo, (mkWord_hi_lo x).symm⟩
  have hGoto : (mkWord hi lo).extractLsb' 8 8 = hi := hi_mkWord hi lo
  rw [TwoWordForm, hGoto, extractLsb'_mkWord_of_le hi lo 4 (by decide), extractLsb'_mkWord_of_le hi lo 7 (by decide),
    extractLsb'_six_mkWord, call_bits_iff, goto_bits_iff, lfsr_bits_iff, hi_mkWord, lo_mkWord]
  tauto

/-- The high nibbles of the opcode map (R141) under which no first word has a second. -/
@[simp] def OneWordNibble (n : BitVec 4) : Prop := n ≠ 0xC#4 ∧ n ≠ 0xE#4

theorem not_twoWordForm_of_high_nibble {x : IWord} (h : OneWordNibble (x.hi.extractLsb' 4 4)) : ¬ TwoWordForm x := by
  obtain ⟨hC, hE⟩ := h
  simp [twoWordForm_iff, hC, hE]

/-! ### The decoder's first word -/

/-- Whether a first word needs a second one. -/
def First.isTwoWord : First → Bool
  | .movff _ | .lfsr _ _ | .call _ _ | .goto _ => true
  | .one _ | .illegal => false

theorem isTwoWord_decodeInherent (b : Bool) (lo : Byte) : (decodeInherent b lo).isTwoWord = false := by
  unfold decodeInherent
  split
  case h_6 => split <;> rfl
  all_goals rfl

theorem isTwoWord_decodeLow (b : Bool) (hi lo : Byte) : (decodeLow b hi lo).isTwoWord = false := by
  unfold decodeLow
  split
  case h_1 => exact isTwoWord_decodeInherent b lo
  case h_2 => split <;> rfl
  all_goals rfl

theorem isTwoWord_decodeByte (hi lo : Byte) : (decodeByte hi lo).isTwoWord = false := by
  unfold decodeByte
  split <;> rfl

theorem isTwoWord_decodeByteD (b : Bool) (hi lo : Byte) : (decodeByteD b hi lo).isTwoWord = false := by
  unfold decodeByteD
  split
  case h_18 => split <;> rfl
  all_goals rfl

/-- Under the high nibble Eh the low nibble decides, and for LFSR the top bits of the low byte. -/
theorem isTwoWord_decodeControl_iff {x : IWord} (hE : x.hi.extractLsb' 4 4 = 0xE#4)
    (hok : decodeControl x.hi x.lo ≠ .illegal) :
    (decodeControl x.hi x.lo).isTwoWord = true ↔ TwoWordForm x := by
  simp only [twoWordForm_iff, hE, ← BitVec.toNat_inj]
  revert hok
  unfold decodeControl
  split <;> simp_all [First.isTwoWord]

theorem isTwoWord_decodeFirst_of_high_nibble (b : Bool) {hi : Byte} (lo : Byte)
    (h : OneWordNibble (hi.extractLsb' 4 4)) : (decodeFirst b hi lo).isTwoWord = false := by
  obtain ⟨hC, hE⟩ := h
  unfold decodeFirst
  split
  case h_1 => exact isTwoWord_decodeLow b hi lo
  case h_2 => exact isTwoWord_decodeByte hi lo
  case h_8 h => exact absurd (BitVec.eq_of_toNat_eq h) hC
  case h_9 => split <;> rfl
  case h_10 h => exact absurd (BitVec.eq_of_toNat_eq h) hE
  case h_12 => exact isTwoWord_decodeByteD b hi lo
  all_goals rfl

/-- The decoder asks for a second word exactly on the forms of R120, among the words that some row owns. -/
theorem isTwoWord_decodeFirst_iff {b : Bool} {x : IWord} (hok : decodeFirst b x.hi x.lo ≠ .illegal) :
    (decodeFirst b x.hi x.lo).isTwoWord = true ↔ TwoWordForm x := by
  by_cases hC : x.hi.extractLsb' 4 4 = 0xC#4
  · simp [decodeFirst, twoWordForm_iff, hC, First.isTwoWord]
  by_cases hE : x.hi.extractLsb' 4 4 = 0xE#4
  · have hcontrol : decodeFirst b x.hi x.lo = decodeControl x.hi x.lo := by simp [decodeFirst, hE]
    rw [hcontrol] at hok ⊢
    exact isTwoWord_decodeControl_iff hE hok
  · refine iff_of_false ?_ (not_twoWordForm_of_high_nibble ⟨hC, hE⟩)
    simp [isTwoWord_decodeFirst_of_high_nibble b x.lo ⟨hC, hE⟩]

/-- A whole first word: the decoder takes no more bytes. -/
theorem decodeOn_ok_of_oneWord {b : Bool} {hi lo : Byte} {after rest : List Byte} {i : Instr}
    (h : decodeOn b (lo :: hi :: after) = .ok i rest) (hone : (decodeFirst b hi lo).isTwoWord = false) :
    after = rest := by
  cases hf : decodeFirst b hi lo with
  | one j => rw [decodeOn_one hf] at h; cases h; rfl
  | illegal => rw [decodeOn_illegal hf] at h; cases h
  | movff | lfsr | call | goto => simp [hf, First.isTwoWord] at hone

/-- Half an instruction: the decoder takes two bytes more. -/
theorem decodeOn_ok_of_twoWord {b : Bool} {hi lo : Byte} {after rest : List Byte} {i : Instr}
    (h : decodeOn b (lo :: hi :: after) = .ok i rest) (htwo : (decodeFirst b hi lo).isTwoWord = true) :
    after.length = rest.length + 2 := by
  match after with
  | [] | [_] => cases hf : decodeFirst b hi lo <;> simp_all [decodeOn, First.isTwoWord]
  | lo2 :: hi2 :: tail =>
    have hnotOne : ∀ j, decodeFirst b hi lo ≠ .one j := fun j hj => by simp [hj, First.isTwoWord] at htwo
    have hnotIllegal : decodeFirst b hi lo ≠ .illegal := fun hj => by simp [hj, First.isTwoWord] at htwo
    rw [decodeOn_two rfl hnotOne hnotIllegal] at h
    split at h
    · cases h; rfl
    · cases h

/-! ### The encoder's first word -/

@[simp] theorem high_nibble_wordByteD (op : BitVec 6) (f : Byte) (d a : Bool) :
    (wordByteD op f d a).hi.extractLsb' 4 4 = op.extractLsb' 2 4 := by
  rw [wordByteD, hi_mkWord]; revert op d a; decide

@[simp] theorem high_nibble_wordByte (op : BitVec 7) (f : Byte) (a : Bool) :
    (wordByte op f a).hi.extractLsb' 4 4 = op.extractLsb' 3 4 := by
  rw [wordByte, hi_mkWord]; revert op a; decide

@[simp] theorem high_nibble_wordBit (op : BitVec 4) (f : Byte) (b : BitVec 3) (a : Bool) :
    (wordBit op f b a).hi.extractLsb' 4 4 = op := by
  rw [wordBit, hi_mkWord]; exact (bit_format_fields op b a).1

@[simp] theorem high_nibble_word12 (op : BitVec 4) (x : BitVec 12) : (word12 op x).hi.extractLsb' 4 4 = op := by
  rw [word12, hi_mkWord]; exact high_nibble_of_append op _

@[simp] theorem high_nibble_wordBranch11 (op : BitVec 5) (n : BitVec 11) :
    (wordBranch11 op n).hi.extractLsb' 4 4 = op.extractLsb' 1 4 := by
  rw [wordBranch11, hi_mkWord]; exact (branch11_format_fields op _).1

/-- The low byte of LFSR's first word has its top bits 0, whatever pointer it names (R133). -/
theorem lfsr_low_byte_top (ff : BitVec 2) (k : BitVec 4) : (0#2 ++ ff ++ k : Byte).extractLsb' 6 2 = 0#2 := by
  revert ff k; decide

/-- The encoding of an instruction is as many words as `Instr.isTwoWord` says, and the first word says so too. -/
def LengthInFirstWord (i : Instr) : Prop :=
  ∃ x rest, encode i = x :: rest ∧ rest.length = i.isTwoWord.toNat ∧ (TwoWordForm x ↔ i.isTwoWord = true)

theorem lengthInFirstWord_of_one {i : Instr} {x : IWord} (he : encode i = [x]) (hi : i.isTwoWord = false)
    (hx : ¬ TwoWordForm x) : LengthInFirstWord i :=
  ⟨x, [], he, by simp [hi], by simp [hi, hx]⟩

theorem lengthInFirstWord_of_two {i : Instr} {x y : IWord} (he : encode i = [x, y]) (hi : i.isTwoWord = true)
    (hx : TwoWordForm x) : LengthInFirstWord i :=
  ⟨x, [y], he, by simp [hi], by simp [hi, hx]⟩

/-- The two-word instructions have their form; the conditional branches share the high nibble Eh with three of them and
differ in the low nibble; every other first word differs in the high nibble. -/
theorem lengthInFirstWord (i : Instr) : LengthInFirstWord i := by
  cases i with
  | movff | goto => exact lengthInFirstWord_of_two rfl rfl (by simp [twoWordForm_iff])
  | lfsr => exact lengthInFirstWord_of_two rfl rfl (by simp [twoWordForm_iff, lfsr_low_byte_top])
  | call _ s => exact lengthInFirstWord_of_two rfl rfl (by cases s <;> simp [twoWordForm_iff])
  | bc | bn | bnc | bnn | bnov | bnz | bov | bz => exact lengthInFirstWord_of_one rfl rfl (by simp [twoWordForm_iff])
  | _ => exact lengthInFirstWord_of_one rfl rfl (not_twoWordForm_of_high_nibble (by simp))

theorem Instr.isTwoWord_iff (i : Instr) :
    i.isTwoWord = true ↔
      (∃ fs fd, i = .movff fs fd) ∨ (∃ ff k, i = .lfsr ff k) ∨ (∃ k s, i = .call k s) ∨ ∃ k, i = .goto k := by
  cases i <;> simp [Instr.isTwoWord]

/-- Settles O6: the encoder's first word by format, the decoder's by the nibbles of the opcode map. -/
theorem firstWordTellsLength : Obligations.FirstWordTellsLength := by
  refine ⟨fun i _ => ?_, fun b x after i rest h => ?_⟩
  · obtain ⟨x, rest, he, hlen, hform⟩ := lengthInFirstWord i
    have hone : rest.length = 1 ↔ i.isTwoWord = true := by simp [hlen]
    exact ⟨x, rest, he, hlen ▸ Bool.toNat_le _, hone.trans hform.symm, hone.trans i.isTwoWord_iff⟩
  · have hok : decodeFirst b x.hi x.lo ≠ .illegal := by
      intro hill
      rw [decodeOn_illegal hill] at h
      cases h
    have hform := isTwoWord_decodeFirst_iff hok
    exact ⟨fun htwo => decodeOn_ok_of_twoWord h (hform.2 htwo),
      fun hone => decodeOn_ok_of_oneWord h (Bool.eq_false_iff.2 (mt hform.1 hone))⟩

/-! ### The fields of the formats -/

section OperationBits

/- `forms` are the instructions of one format, `word` builds their one word from the operation bits. -/
variable {w : Nat} {forms : List Instr} {ops : List (BitVec w)} {word : BitVec w → IWord}

theorem getElem?_map_encode (h : forms.map encode = ops.map fun op => [word op]) {n : Nat} (hn : n < ops.length) :
    (forms[n]?).map encode = some [word ops[n]] := by
  rw [← List.getElem?_map, h, List.getElem?_map, List.getElem?_eq_getElem hn, Option.map_some]

/-- Instructions of one format with different operation bits: a field that gives these bits back tells them apart. -/
theorem nodup_map_encode_field (h : forms.map encode = ops.map fun op => [word op]) {field : IWord → BitVec w}
    (hfield : ∀ op, field (word op) = op) (hops : ops.Nodup) :
    (forms.map fun i => (encode i).map field).Nodup := by
  have hbits : (forms.map fun i => (encode i).map field) = ops.map fun op => [op] := by
    calc (forms.map fun i => (encode i).map field)
        = (forms.map encode).map (List.map field) := by rw [List.map_map]; rfl
      _ = ops.map fun op => [op] := by rw [h, List.map_map]; simp [Function.comp_def, hfield]
  rw [hbits]
  exact hops.map List.singleton_injective

end OperationBits

/-- The operation bits of format BYTE_D, in the order of `aluForms`. -/
def byteDOps : List (BitVec 6) :=
  [0b010100#6, 0b001110#6, 0b001001#6, 0b001000#6, 0b010111#6, 0b010110#6, 0b010101#6, 0b000001#6, 0b001010#6,
    0b001011#6, 0b010011#6, 0b001111#6, 0b010010#6, 0b000101#6, 0b000111#6, 0b000100#6, 0b000110#6, 0b001101#6,
    0b010001#6, 0b001100#6, 0b010000#6]

theorem aluForms_map_encode (f : Byte) (d a : Bool) :
    (Machine.aluForms f d a).map encode = byteDOps.map fun op => [wordByteD op f d a] := rfl

theorem wordByteD_operation (op : BitVec 6) (f : Byte) (d a : Bool) : (wordByteD op f d a).extractLsb' 10 6 = op := by
  calc (wordByteD op f d a).extractLsb' 10 6
      = (op ++ BitVec.ofBool d ++ BitVec.ofBool a : Byte).extractLsb' 2 6 :=
        BitVec.extractLsb'_append_eq_of_le (by decide)
    _ = op := (byteD_format_fields op d a).1

/-- The five instructions of format BIT (R124). -/
def bitForms (f : Byte) (b : BitVec 3) (a : Bool) : List Instr :=
  [.bcf f b a, .bsf f b a, .btfsc f b a, .btfss f b a, .btg f b a]

/-- Their operation bits. -/
def bitOps : List (BitVec 4) := [0x9#4, 0x8#4, 0xB#4, 0xA#4, 0x7#4]

theorem bitForms_map_encode (f : Byte) (b : BitVec 3) (a : Bool) :
    (bitForms f b a).map encode = bitOps.map fun op => [wordBit op f b a] := rfl

theorem wordBit_operation (op : BitVec 4) (f : Byte) (b : BitVec 3) (a : Bool) :
    (wordBit op f b a).extractLsb' 12 4 = op := by
  calc (wordBit op f b a).extractLsb' 12 4
      = (op ++ b ++ BitVec.ofBool a : Byte).extractLsb' 4 4 := BitVec.extractLsb'_append_eq_of_le (by decide)
    _ = op := (bit_format_fields op b a).1

/-- The two bytes of format BRANCH11 hold `n` in one piece. -/
theorem wordBranch11_eq_append (op : BitVec 5) (n : BitVec 11) : wordBranch11 op n = op ++ n := by
  calc wordBranch11 op n
      = op ++ (n.extractLsb' 8 3 ++ n.extractLsb' 0 8 : BitVec 11) := BitVec.append_assoc
    _ = op ++ n := by rw [join11]

/-- Settles O7: the words are built from one list of operation bits per format, and these are pairwise different. -/
theorem formatFields : Obligations.FormatFields := by
  refine ⟨fun n hn => ⟨byteDOps[n], fun f d a => ?_⟩, fun n hn => ⟨bitOps[n], fun f b a => ?_⟩, fun n => ?_,
    fun f d a b => ⟨?_, ?_⟩⟩
  · exact getElem?_map_encode (aluForms_map_encode f d a) hn
  · exact getElem?_map_encode (bitForms_map_encode f b a) hn
  · exact ⟨congrArg ([·]) (wordBranch11_eq_append _ n), congrArg ([·]) (wordBranch11_eq_append _ n)⟩
  · exact nodup_map_encode_field (aluForms_map_encode f d a) (wordByteD_operation · f d a) (by decide)
  · exact nodup_map_encode_field (bitForms_map_encode f b a) (wordBit_operation · f b a) (by decide)

end Sys2Proof
end

section
/-! Proofs of the data-movement family: the literal loads. -/

namespace Sys2Proof

open Machine

/-- Where the pc is even and the instruction ends inside the address range, the next instruction is `n` bytes on: neither
the wrap (R27) nor the clearing of bit 0 shows. -/
theorem toNat_pc_advance {s : State} {n : Nat} (hpc : s.pc.getLsbD 0 = false) (hn : n % 2 = 0)
    (hlt : s.pc.toNat + n < 2 ^ 21) : (s.advance n).pc.toNat = s.pc.toNat + n := by
  have hsum : (s.pc + BitVec.ofNat 21 n).toNat = s.pc.toNat + n := by
    rw [BitVec.toNat_add, BitVec.toNat_ofNat, Nat.add_mod_mod, Nat.mod_eq_of_lt hlt]
  have heven : (s.pc + BitVec.ofNat 21 n).getLsbD 0 = false := by
    simp only [BitVec.getLsbD, hsum, Nat.testBit_zero, decide_eq_false_iff_not] at hpc ⊢
    omega
  rw [State.advance_pc, evenPc_of_even _ heven, hsum]

/-- A read of BSR returns its four bits with bits 7:4 zero (R160). -/
theorem peek_bsr (s : State) : peek (some 0xFE0#12) s = 0#4 ++ s.bsr := by
  have hcell : cellAt 0xFE0#12 = .sfr .bsr := by decide
  simp [peek, hcell, peekSfr]

theorem exec_movlb (k : BitVec 4) (s : State) : exec (.movlb k) s = .next ({ s with bsr := k }.advance 2) := rfl

theorem exec_movlw (k : Byte) (s : State) : exec (.movlw k) s = .next ({ s with w := k }.advance 2) := rfl

/-- Under the high byte 01h only the words with bits 7:4 of the low byte zero are MOVLB (R160). -/
theorem decodeFirst_movlb_row (b : Bool) (lo : Byte) :
    decodeFirst b 0x01#8 lo = if lo.extractLsb' 4 4 = 0#4 then .one (.movlb (lo.extractLsb' 0 4)) else .illegal := rfl

theorem decodeFirst_above_movlb (b : Bool) {lo : Byte} (h : 0x10 ≤ lo.toNat) : decodeFirst b 0x01#8 lo = .illegal := by
  have hnibble : lo.extractLsb' 4 4 ≠ 0#4 := by revert lo; decide
  rw [decodeFirst_movlb_row, if_neg hnibble]

/-- Settles O11: both loads are one field update and an advance of the pc by 2. -/
theorem loadLiteral : Obligations.LoadLiteral := by
  refine ⟨fun k s => ⟨⟨{ s with bsr := k }.advance 2, exec_movlb k s, rfl, fun hpc hlt => ?_, peek_bsr _⟩, rfl, rfl⟩,
    fun b _ hlo => decodeFirst_above_movlb b hlo,
    fun k s => ⟨⟨{ s with w := k }.advance 2, exec_movlw k s, rfl, fun hpc hlt => ?_⟩, rfl, rfl⟩⟩
  · exact toNat_pc_advance (s := { s with bsr := k }) hpc rfl hlt
  · exact toNat_pc_advance (s := { s with w := k }) hpc rfl hlt

end Sys2Proof
end

section
/-! Proofs of the control family: the two forms of NOP. -/

namespace Sys2Proof

open Machine

theorem exec_nop (s : State) : exec .nop s = .next (s.advance 2) := rfl

theorem exec_nopF (x : BitVec 12) (s : State) : exec (.nopF x) s = .next (s.advance 2) := rfl

/-- The words with the high nibble Fh belong to NOP alone, whatever their other bits and the device (R273). -/
theorem decodeFirst_of_high_nibble_F (b : Bool) {hi : Byte} (lo : Byte) (h : hi.extractLsb' 4 4 = 0xF#4) :
    decodeFirst b hi lo = .one (.nopF (hi.extractLsb' 0 4 ++ lo)) := by
  simp [decodeFirst, h]

/-- Settles O32: both forms are an advance of the pc by 2, and the high nibble alone decides the decoder. -/
theorem noOperation : Obligations.NoOperation := by
  refine fun x s => ⟨fun i hi => ?_, rfl, rfl, fun b _ lo h => decodeFirst_of_high_nibble_F b lo h⟩
  have hform : i = .nop ∨ i = .nopF x := by simpa using hi
  rcases hform with rfl | rfl
  · exact ⟨s.advance 2, exec_nop s, rfl, fun hpc hlt => toNat_pc_advance hpc rfl hlt, rfl⟩
  · exact ⟨s.advance 2, exec_nopF x s, rfl, fun hpc hlt => toNat_pc_advance hpc rfl hlt, rfl⟩

end Sys2Proof
end

section
/-! Proofs of the encoding family: decoding and encoding are inverse to each other. -/

namespace Sys2Proof

/-! ### What a first word says, read both ways -/

/-- What a word must be for the decoder to say `first` of it, on a device with the given `HAS_SUBFWB_DAW`: the encoding of
a whole instruction, or the first half of one. -/
def First.Reads (b : Bool) (x : IWord) : First → Prop
  | .one i => encode i = [x] ∧ i.wellFormedOn b = true
  | .movff fs => x = word12 0xC#4 fs
  | .lfsr ff k => x = mkWord 0xEE#8 (0#2 ++ ff ++ k) ∧ ff ≠ 3#2
  | .call s k => x = mkWord (0b1110110#7 ++ BitVec.ofBool s) k
  | .goto k => x = mkWord 0xEF#8 k
  | .illegal => True

theorem eq_ofNat_of_toNat {w n : Nat} {x : BitVec w} (h : x.toNat = n) : x = BitVec.ofNat w n := by simp [← h]

/-- The high byte of format BYTE_D, put together from its fields (R122). -/
theorem join_byteD (hi : Byte) :
    hi.extractLsb' 2 6 ++ BitVec.ofBool (hi.getLsbD 1) ++ BitVec.ofBool (hi.getLsbD 0) = hi := by
  revert hi; decide

/-- The high byte of format BIT, put together from its fields (R124). -/
theorem join_bit (hi : Byte) : hi.extractLsb' 4 4 ++ hi.extractLsb' 1 3 ++ BitVec.ofBool (hi.getLsbD 0) = hi := by
  revert hi; decide

/-- The high byte of format BYTE, put together from its fields (R123). -/
theorem join_byte (hi : Byte) : hi.extractLsb' 1 7 ++ BitVec.ofBool (hi.getLsbD 0) = hi := by
  revert hi; decide

/-- The high byte of format BRANCH11, put together from its fields (R127). -/
theorem join_branch11 (hi : Byte) : hi.extractLsb' 3 5 ++ hi.extractLsb' 0 3 = hi :=
  append_of_extracts (w := 5) (v := 3) hi

theorem low_nibble_zero_append {lo : Byte} (h : lo.extractLsb' 4 4 = 0#4) : 0#4 ++ lo.extractLsb' 0 4 = lo := by
  rw [← h, join_nibbles]

theorem wordByteD_of_fields {hi : Byte} (lo : Byte) {op : BitVec 6} (h : hi.extractLsb' 2 6 = op) :
    wordByteD op lo (hi.getLsbD 1) (hi.getLsbD 0) = mkWord hi lo := by rw [wordByteD, ← h, join_byteD]

theorem wordByte_of_fields {hi : Byte} (lo : Byte) {op : BitVec 7} (h : hi.extractLsb' 1 7 = op) :
    wordByte op lo (hi.getLsbD 0) = mkWord hi lo := by rw [wordByte, ← h, join_byte]

theorem wordBit_of_fields {hi : Byte} (lo : Byte) {op : BitVec 4} (h : hi.extractLsb' 4 4 = op) :
    wordBit op lo (hi.extractLsb' 1 3) (hi.getLsbD 0) = mkWord hi lo := by rw [wordBit, ← h, join_bit]

theorem word12_of_fields {hi : Byte} (lo : Byte) {op : BitVec 4} (h : hi.extractLsb' 4 4 = op) :
    word12 op (hi.extractLsb' 0 4 ++ lo) = mkWord hi lo := by
  rw [word12, extract_high_of_append, extract_low_of_append, ← h, join_nibbles]

theorem wordBranch11_of_fields {hi : Byte} (lo : Byte) {op : BitVec 5} (h : hi.extractLsb' 3 5 = op) :
    wordBranch11 op (hi.extractLsb' 0 3 ++ lo) = mkWord hi lo := by
  rw [wordBranch11, extract_high_of_append, extract_low_of_append, ← h, join_branch11]

theorem reads_decodeInherent (b : Bool) (lo : Byte) : (decodeInherent b lo).Reads b (mkWord 0x00#8 lo) := by
  unfold decodeInherent
  split
  case h_6 h =>
    split
    · rename_i hb
      exact ⟨by rw [eq_ofNat_of_toNat h]; rfl, hb⟩
    · trivial
  case h_20 => trivial
  all_goals rename_i h; rw [eq_ofNat_of_toNat h]; exact ⟨rfl, rfl⟩

theorem reads_decodeByteD (b : Bool) (hi lo : Byte) : (decodeByteD b hi lo).Reads b (mkWord hi lo) := by
  unfold decodeByteD
  split
  case h_18 h =>
    split
    · rename_i hb
      exact ⟨congrArg ([·]) (wordByteD_of_fields lo (eq_ofNat_of_toNat h)), hb⟩
    · trivial
  case h_21 => trivial
  all_goals rename_i h; exact ⟨congrArg ([·]) (wordByteD_of_fields lo (eq_ofNat_of_toNat h)), rfl⟩

/-- The operation bits of format BYTE are the high nibble 6h and bits 3:1 (R141). -/
theorem operation_byte {hi : Byte} {op : BitVec 3} (h6 : hi.extractLsb' 4 4 = 6#4) (h : hi.extractLsb' 1 3 = op) :
    hi.extractLsb' 1 7 = 6#4 ++ op := by
  rw [← h6, ← h]
  exact (BitVec.extractLsb'_append_extractLsb'_eq_extractLsb' (start₁ := 1) (len₁ := 3) (len₂ := 4) rfl).symm

theorem reads_decodeByte (b : Bool) {hi : Byte} (lo : Byte) (h6 : hi.extractLsb' 4 4 = 6#4) :
    (decodeByte hi lo).Reads b (mkWord hi lo) := by
  have last : ∀ x : BitVec 3, x.toNat ∉ [0, 1, 2, 3, 4, 5, 6] → x = 7#3 := by decide
  unfold decodeByte
  split
  case h_8 =>
    have h7 : hi.extractLsb' 1 3 = 7#3 := last _ (by simp_all)
    exact ⟨congrArg ([·]) (wordByte_of_fields lo (operation_byte h6 h7)), rfl⟩
  all_goals rename_i h; exact ⟨congrArg ([·]) (wordByte_of_fields lo (operation_byte h6 (eq_ofNat_of_toNat h))), rfl⟩

/-- A high byte given by its nibbles. -/
theorem eq_of_nibbles {hi : Byte} {x y : BitVec 4} (hx : hi.extractLsb' 4 4 = x) (hy : hi.extractLsb' 0 4 = y) :
    hi = x ++ y := by rw [← hx, ← hy, join_nibbles]

/-- Under the high nibble 0h the low nibbles 4h to 7h, which no other row takes, are DECF's. -/
theorem operation_decf {hi : Byte} (h0 : hi.extractLsb' 4 4 = 0#4)
    (h : (hi.extractLsb' 0 4).toNat ∉ [0x0, 0x1, 0x2, 0x3, 0x8, 0x9, 0xA, 0xB, 0xC, 0xD, 0xE, 0xF]) :
    hi.extractLsb' 2 6 = 0b000001#6 := by
  revert hi; decide

theorem reads_decodeLow (b : Bool) {hi : Byte} (lo : Byte) (h0 : hi.extractLsb' 4 4 = 0#4) :
    (decodeLow b hi lo).Reads b (mkWord hi lo) := by
  unfold decodeLow
  split
  case h_1 h => rw [eq_of_nibbles h0 (eq_ofNat_of_toNat h)]; exact reads_decodeInherent b lo
  case h_2 h =>
    split
    · rename_i hlo
      rw [eq_of_nibbles h0 (eq_ofNat_of_toNat h)]
      exact ⟨by rw [encode, low_nibble_zero_append hlo]; rfl, rfl⟩
    · trivial
  case h_13 => exact ⟨congrArg ([·]) (wordByteD_of_fields lo (operation_decf h0 (by simp_all))), rfl⟩
  all_goals rename_i h; rw [eq_of_nibbles h0 (eq_ofNat_of_toNat h)]; exact ⟨rfl, rfl⟩

/-- LFSR's first low byte, from its fields (R133). -/
theorem join_lfsr {lo : Byte} (h : lo.extractLsb' 6 2 = 0#2) :
    0#2 ++ lo.extractLsb' 4 2 ++ lo.extractLsb' 0 4 = lo := by
  revert lo; decide

theorem reads_decodeControl (b : Bool) {hi : Byte} (lo : Byte) (hE : hi.extractLsb' 4 4 = 0xE#4) :
    (decodeControl hi lo).Reads b (mkWord hi lo) := by
  unfold decodeControl
  split
  case h_11 h =>
    split
    · rename_i hlo
      simp only [Bool.and_eq_true, decide_eq_true_eq, bne_iff_ne] at hlo
      rw [eq_of_nibbles hE (eq_ofNat_of_toNat h)]
      exact ⟨by rw [join_lfsr hlo.1]; rfl, hlo.2⟩
    · trivial
  case h_13 => trivial
  case h_9 h | h_10 h | h_12 h => rw [eq_of_nibbles hE (eq_ofNat_of_toNat h)]; rfl
  all_goals rename_i h; rw [eq_of_nibbles hE (eq_ofNat_of_toNat h)]; exact ⟨rfl, rfl⟩

/-- The operation bits of format BRANCH11 are the high nibble and bit 3 (R127). -/
theorem operation_branch11 {hi : Byte} {op : BitVec 4} {bit : Bool} (h : hi.extractLsb' 4 4 = op)
    (hbit : hi.getLsbD 3 = bit) : hi.extractLsb' 3 5 = op ++ BitVec.ofBool bit := by
  have key : ∀ hi : Byte, hi.extractLsb' 3 5 = hi.extractLsb' 4 4 ++ BitVec.ofBool (hi.getLsbD 3) := by decide
  rw [key, h, hbit]

/-- The decoder reads no first word for more or less than it is: no bit is ignored. -/
theorem reads_decodeFirst (b : Bool) (hi lo : Byte) : (decodeFirst b hi lo).Reads b (mkWord hi lo) := by
  unfold decodeFirst
  split
  case h_1 h => exact reads_decodeLow b lo (eq_ofNat_of_toNat h)
  case h_2 h => exact reads_decodeByte b lo (eq_ofNat_of_toNat h)
  case h_8 h => exact (word12_of_fields lo (eq_ofNat_of_toNat h)).symm
  case h_9 h =>
    split
    · rename_i hbit
      exact ⟨congrArg ([·]) (wordBranch11_of_fields lo (operation_branch11 (eq_ofNat_of_toNat h) hbit)), rfl⟩
    · rename_i hbit
      exact ⟨congrArg ([·]) (wordBranch11_of_fields lo
        (operation_branch11 (eq_ofNat_of_toNat h) (Bool.eq_false_iff.2 hbit))), rfl⟩
  case h_10 h => exact reads_decodeControl b lo (eq_ofNat_of_toNat h)
  case h_11 h => exact ⟨congrArg ([·]) (word12_of_fields lo (eq_ofNat_of_toNat h)), rfl⟩
  case h_12 => exact reads_decodeByteD b hi lo
  all_goals rename_i h; exact ⟨congrArg ([·]) (wordBit_of_fields lo (eq_ofNat_of_toNat h)), rfl⟩

/-- The converse for a whole instruction: its encoding is read as that instruction. -/
theorem decodeFirst_one_of_reads {b : Bool} {i : Instr} {x : IWord} (h : First.Reads b x (.one i)) :
    decodeFirst b x.hi x.lo = .one i := by
  obtain ⟨he, hw⟩ := h
  cases i with
  | movff | lfsr | call | goto => cases he
  | bcf f bit a | bsf f bit a | btfsc f bit a | btfss f bit a | btg f bit a =>
    cases he
    simp only [decodeFirst, wordBit, hi_mkWord, lo_mkWord, fun op => bit_format_fields op bit a]
    rfl
  | bra n | rcall n =>
    cases he
    simp only [decodeFirst, wordBranch11, hi_mkWord, lo_mkWord, fun op => branch11_format_fields op (n.extractLsb' 8 3),
      join11]
    rfl
  | daw =>
    obtain rfl : b = true := hw
    cases he
    rfl
  | subfwb f d a =>
    obtain rfl : b = true := hw
    cases he
    rw [wordByteD, hi_mkWord, lo_mkWord]
    cases d <;> cases a <;> rfl
  | movwf f a | mulwf f a | clrf f a | setf f a | cpfseq f a | cpfsgt f a | cpfslt f a | negf f a | tstfsz f a =>
    cases he
    rw [wordByte, hi_mkWord, lo_mkWord]
    cases a <;> rfl
  | ret s | retfie s => cases he; cases s <;> rfl
  | movf f d a | swapf f d a | addwf f d a | addwfc f d a | subwf f d a | subwfb f d a | decf f d a
  | decfsz f d a | dcfsnz f d a | incf f d a | incfsz f d a | infsnz f d a | andwf f d a | comf f d a
  | iorwf f d a | rlcf f d a | rlncf f d a | rrcf f d a | rrncf f d a | xorwf f d a =>
    cases he
    rw [wordByteD, hi_mkWord, lo_mkWord]
    cases d <;> cases a <;> rfl
  | movlb k => cases he; rw [hi_mkWord, lo_mkWord, decodeFirst_movlb_row]; simp
  | nopF x =>
    cases he
    rw [decodeFirst_of_high_nibble_F _ _ (high_nibble_word12 _ x), word12, hi_mkWord, lo_mkWord, low_nibble_of_append,
      join12]
  | _ => cases he; rw [hi_mkWord, lo_mkWord]; rfl

/-- The converse for every first word some row owns. -/
theorem decodeFirst_of_reads {b : Bool} {first : First} {x : IWord} (hok : first ≠ .illegal) (h : first.Reads b x) :
    decodeFirst b x.hi x.lo = first := by
  cases first with
  | one i => exact decodeFirst_one_of_reads h
  | illegal => exact absurd rfl hok
  | movff fs => cases h; simp [decodeFirst, word12]
  | goto k => cases h; rw [hi_mkWord, lo_mkWord]; rfl
  | call s k => cases h; rw [hi_mkWord, lo_mkWord]; cases s <;> rfl
  | lfsr ff k =>
    obtain ⟨rfl, hff⟩ := h
    rw [hi_mkWord, lo_mkWord]
    revert b ff k
    decide

/-! ### The second word -/

/-- A second word with bits 15:12 = 1111 carries its other twelve bits (R134). -/
theorem word12_of_high_nibble {y : IWord} (h : y.hi.extractLsb' 4 4 = 0xF#4) :
    word12 0xF#4 (y.hi.extractLsb' 0 4 ++ y.lo) = y := by
  rw [word12_of_fields _ h, mkWord_hi_lo]

/-- What the two halves of an instruction say together is its encoding. -/
theorem encode_of_decodeSecond {b : Bool} {first : First} {x y : IWord} {i : Instr} (hx : first.Reads b x)
    (h : decodeSecond first y.hi y.lo = some i) : encode i = [x, y] ∧ i.wellFormedOn b = true := by
  cases first with
  | one | illegal => cases h
  | movff fs =>
    obtain ⟨hy, hi⟩ := Option.ite_none_right_eq_some.1 h
    cases hx
    cases hi
    exact ⟨by rw [encode, word12_of_high_nibble hy], rfl⟩
  | lfsr ff k =>
    obtain ⟨hy, hi⟩ := Option.ite_none_right_eq_some.1 h
    obtain ⟨rfl, hff⟩ := hx
    cases hi
    refine ⟨?_, by simp [Instr.wellFormedOn, Instr.lfsrOperandOk, Instr.secondaryOk, hff]⟩
    rw [encode, extract_high_of_append, extract_low_of_append, ← hy, mkWord_hi_lo]
  | call s k =>
    obtain ⟨hy, hi⟩ := Option.ite_none_right_eq_some.1 h
    cases hx
    cases hi
    exact ⟨by rw [encode, extract_high_of_append, extract_low_of_append, word12_of_high_nibble hy], rfl⟩
  | goto k =>
    obtain ⟨hy, hi⟩ := Option.ite_none_right_eq_some.1 h
    cases hx
    cases hi
    exact ⟨by rw [encode, extract_high_of_append, extract_low_of_append, word12_of_high_nibble hy], rfl⟩

/-- An instruction whose encoding is two words is put together from what each says. -/
theorem decodeSecond_of_encode {b : Bool} {i : Instr} {x y : IWord} (he : encode i = [x, y])
    (hw : i.wellFormedOn b = true) :
    ∃ first, (∀ j, first ≠ .one j) ∧ first ≠ .illegal ∧ first.Reads b x ∧ decodeSecond first y.hi y.lo = some i := by
  cases i with
  | movff fs fd =>
    cases he
    exact ⟨.movff fs, nofun, nofun, rfl, by simp [decodeSecond, word12]⟩
  | lfsr ff k =>
    cases he
    have hff : ff ≠ 3#2 := by simpa [Instr.wellFormedOn, Instr.lfsrOperandOk, Instr.secondaryOk] using hw
    exact ⟨.lfsr ff (k.extractLsb' 8 4), nofun, nofun, ⟨rfl, hff⟩, by simp [decodeSecond]⟩
  | call k s =>
    cases he
    exact ⟨.call s (k.extractLsb' 0 8), nofun, nofun, rfl, by simp [decodeSecond, word12]⟩
  | goto k =>
    cases he
    exact ⟨.goto (k.extractLsb' 0 8), nofun, nofun, rfl, by simp [decodeSecond, word12]⟩
  | _ => cases he

/-- An encoding is one word or two. -/
theorem encode_cases (i : Instr) : (∃ x, encode i = [x]) ∨ ∃ x y, encode i = [x, y] := by
  cases i with
  | movff | lfsr | call | goto => exact .inr ⟨_, _, rfl⟩
  | _ => exact .inl ⟨_, rfl⟩

/-- Settles O1: each word of the encoding is read as what it is. -/
theorem decodeOfEncode : Obligations.DecodeOfEncode := by
  intro b i rest hw
  rcases encode_cases i with ⟨x, he⟩ | ⟨x, y, he⟩
  · rw [encodeBytes, he]
    exact decodeOn_one (decodeFirst_one_of_reads ⟨he, hw⟩) rest
  · obtain ⟨first, hone, hok, hx, hy⟩ := decodeSecond_of_encode he hw
    rw [encodeBytes, he]
    refine (decodeOn_two (decodeFirst_of_reads hok hx) hone hok y.lo y.hi rest).trans ?_
    rw [hy]

/-- Settles O2: what the decoder reads of a word determines the word. -/
theorem encodeOfDecode : Obligations.EncodeOfDecode := by
  intro b bs i rest h
  match bs with
  | [] | [_] => cases h
  | lo :: hi :: after =>
    have hx := reads_decodeFirst b hi lo
    cases hf : decodeFirst b hi lo with
    | illegal => rw [decodeOn_illegal hf] at h; cases h
    | one j =>
      rw [decodeOn_one hf] at h
      cases h
      rw [hf] at hx
      obtain ⟨he, hw⟩ := hx
      exact ⟨by simp [encodeBytes, he, wordBytes], hw⟩
    | movff | lfsr | call | goto =>
      match after with
      | [] | [_] => simp [decodeOn, hf] at h
      | lo2 :: hi2 :: tail =>
        rw [decodeOn_two hf nofun nofun] at h
        split at h
        · rename_i hs
          cases h
          rw [hf] at hx
          obtain ⟨he, hw⟩ := encode_of_decodeSecond (y := mkWord hi2 lo2) hx (by simpa using hs)
          exact ⟨by simp [encodeBytes, he, wordBytes], hw⟩
        · cases h

end Sys2Proof
end

section
/-! Proofs of the encoding family: the words and pairs of words the decoder rejects. -/

namespace Sys2Proof

/-- The decoder rejects bytes as illegal by their first word alone. -/
theorem decodeOn_illegal_iff {b : Bool} {hi lo : Byte} {rest : List Byte} :
    decodeOn b (lo :: hi :: rest) = .illegalInstruction ↔ decodeFirst b hi lo = .illegal := by
  refine ⟨fun h => ?_, fun h => decodeOn_illegal h rest⟩
  cases hf : decodeFirst b hi lo with
  | illegal => rfl
  | one i => rw [decodeOn_one hf] at h; cases h
  | movff | lfsr | call | goto =>
    match rest with
    | [] | [_] => simp [decodeOn, hf] at h
    | lo2 :: hi2 :: tail =>
      rw [decodeOn_two hf nofun nofun] at h
      split at h <;> cases h

theorem decodeInherent_illegal_iff (b : Bool) (lo : Byte) :
    decodeInherent b lo = .illegal ↔
      (1 ≤ lo.toNat ∧ lo.toNat ≤ 2) ∨ (0x14 ≤ lo.toNat ∧ lo.toNat ≤ 0xFE) ∨ (b = false ∧ lo.toNat = 7) := by
  revert b lo; decide

theorem decodeLow_illegal_iff (b : Bool) (hi lo : Byte) :
    decodeLow b hi lo = .illegal ↔
      (hi.toNat % 16 = 0 ∧ decodeInherent b lo = .illegal) ∨ (hi.toNat % 16 = 1 ∧ 0x10 ≤ lo.toNat) := by
  have hlo : lo.extractLsb' 4 4 = 0#4 ↔ lo.toNat < 16 := by revert lo; decide
  have hhi : (hi.extractLsb' 0 4).toNat = hi.toNat % 16 := by simp
  unfold decodeLow
  rw [hhi]
  split
  case h_13 h0 h1 _ _ _ _ _ _ _ _ _ _ => exact iff_of_false nofun fun h => h.elim (h0 ·.1) (h1 ·.1)
  all_goals simp [*]

theorem decodeControl_illegal_iff (hi lo : Byte) :
    decodeControl hi lo = .illegal ↔
      (8 ≤ hi.toNat % 16 ∧ hi.toNat % 16 ≤ 0xB) ∨ (hi.toNat % 16 = 0xE ∧ 0x30 ≤ lo.toNat) := by
  have hlo : (lo.extractLsb' 6 2 = 0#2 && lo.extractLsb' 4 2 != 3#2) = decide (lo.toNat < 0x30) := by revert lo; decide
  have hhi : (hi.extractLsb' 0 4).toNat = hi.toNat % 16 := by simp
  unfold decodeControl
  rw [hhi, hlo]
  split
  case h_13 => simp only [imp_false, true_iff] at *; omega
  all_goals simp [*]

theorem decodeByte_ne_illegal (hi lo : Byte) : decodeByte hi lo ≠ .illegal := by
  unfold decodeByte
  split <;> nofun

theorem decodeByteD_illegal_iff (b : Bool) (hi lo : Byte) :
    decodeByteD b hi lo = .illegal ↔ (hi.toNat / 4 = 0x15 ∧ b = false) ∨ hi.toNat / 4 < 4 ∨ 0x17 < hi.toNat / 4 := by
  have hop : (hi.extractLsb' 2 6).toNat = hi.toNat / 4 := by revert hi; decide
  unfold decodeByteD
  rw [hop]
  split
  case h_21 => simp only [imp_false, true_iff] at *; omega
  all_goals simp [*]

/-- The first words no row owns, by their high byte (R142). -/
theorem decodeFirst_illegal_iff (b : Bool) (hi lo : Byte) :
    decodeFirst b hi lo = .illegal ↔
      (hi.toNat = 0 ∧ decodeInherent b lo = .illegal) ∨ (hi.toNat = 1 ∧ 0x10 ≤ lo.toNat) ∨
        (0xE8 ≤ hi.toNat ∧ hi.toNat ≤ 0xEB) ∨ (hi.toNat = 0xEE ∧ 0x30 ≤ lo.toNat) ∨
        (b = false ∧ 0x54 ≤ hi.toNat ∧ hi.toNat ≤ 0x57) := by
  have hhi : (hi.extractLsb' 4 4).toNat = hi.toNat / 16 := by revert hi; decide
  unfold decodeFirst
  rw [hhi]
  split
  case h_1 h => rw [decodeLow_illegal_iff]; grind
  case h_2 h => exact iff_of_false (decodeByte_ne_illegal hi lo) (by omega)
  case h_9 h => exact iff_of_false (by split <;> nofun) (by omega)
  case h_10 h => rw [decodeControl_illegal_iff]; constructor <;> omega
  case h_12 => rw [decodeByteD_illegal_iff]; grind
  all_goals exact iff_of_false nofun (by omega)

theorem toNat_word (x : IWord) : x.toNat = x.hi.toNat * 256 + x.lo.toNat := by
  calc x.toNat
      = (x.hi ++ x.lo).toNat := congrArg BitVec.toNat (mkWord_hi_lo x).symm
    _ = x.hi.toNat * 256 + x.lo.toNat := toNat_append_eq _ _

/-- Settles O4: the rows of each high byte leave out exactly these words. -/
theorem unassignedWords : Obligations.UnassignedWords := by
  intro b x rest
  have hlo := x.lo.isLt
  rw [decodeOn_illegal_iff, decodeFirst_illegal_iff, decodeInherent_illegal_iff, toNat_word x]
  cases b
  · simp only [true_and]; omega
  · simp only [reduceCtorEq, false_and, or_false]; omega

/-! ### Second words -/

/-- The forms by which R120 tells a two-word instruction are four ranges of first words. -/
theorem twoWordForm_iff_range (x : IWord) :
    TwoWordForm x ↔
      (0xC000 ≤ x.toNat ∧ x.toNat ≤ 0xCFFF) ∨ (0xEC00 ≤ x.toNat ∧ x.toNat ≤ 0xEDFF) ∨
        (0xEF00 ≤ x.toNat ∧ x.toNat ≤ 0xEFFF) ∨ (0xEE00 ≤ x.toNat ∧ x.toNat ≤ 0xEE3F) := by
  have := x.isLt
  simp only [TwoWordForm, ← BitVec.toNat_inj, BitVec.extractLsb'_toNat, Nat.shiftRight_eq_div_pow, BitVec.toNat_ofNat]
  omega

/-- Bits 15:12 of a second word stand in its high byte. -/
theorem high_nibble_of_word (y : IWord) : y.extractLsb' 12 4 = y.hi.extractLsb' 4 4 := by
  rw [← extractLsb'_mkWord_of_le y.hi y.lo (k := 12) 4 (by decide), mkWord_hi_lo]

/-- Two words are a malformed pair when the first asks for a second that the other is not. -/
theorem decodeOn_malformed_iff {b : Bool} {x y : IWord} {rest : List Byte} :
    decodeOn b (x.lo :: x.hi :: y.lo :: y.hi :: rest) = .malformedSecondWord ↔
      (decodeFirst b x.hi x.lo).isTwoWord = true ∧ decodeSecond (decodeFirst b x.hi x.lo) y.hi y.lo = none := by
  cases hf : decodeFirst b x.hi x.lo with
  | one i => rw [decodeOn_one hf]; exact iff_of_false nofun nofun
  | illegal => rw [decodeOn_illegal hf]; exact iff_of_false nofun nofun
  | movff | lfsr | call | goto =>
    rw [decodeOn_two hf nofun nofun]
    split <;> simp [*, First.isTwoWord]

/-- The range of first words that each instruction of two words has. -/
def First.InRange (x : IWord) : First → Prop
  | .movff _ => 0xC000 ≤ x.toNat ∧ x.toNat ≤ 0xCFFF
  | .lfsr _ _ => 0xEE00 ≤ x.toNat ∧ x.toNat ≤ 0xEE2F
  | .call _ _ => 0xEC00 ≤ x.toNat ∧ x.toNat ≤ 0xEDFF
  | .goto _ => 0xEF00 ≤ x.toNat ∧ x.toNat ≤ 0xEFFF
  | .one _ | .illegal => True

/-- A first word that asks for a second is in its instruction's range. -/
theorem First.Reads.inRange {b : Bool} {x : IWord} {first : First} (h : first.Reads b x) : first.InRange x := by
  have hword := toNat_word x
  have hlo := x.lo.isLt
  cases first with
  | one | illegal => trivial
  | movff fs =>
    cases h
    have hhi : (word12 0xC#4 fs).hi.toNat = 12 * 16 + (fs.extractLsb' 8 4).toNat := by
      rw [word12, hi_mkWord]; exact toNat_append_eq _ _
    have := (fs.extractLsb' 8 4).isLt
    dsimp only [First.InRange]
    omega
  | call s k =>
    cases h
    rw [hi_mkWord] at hword
    cases s
    · have : ((0b1110110#7 ++ BitVec.ofBool false : Byte)).toNat = 0xEC := rfl
      dsimp only [First.InRange]
      omega
    · have : ((0b1110110#7 ++ BitVec.ofBool true : Byte)).toNat = 0xED := rfl
      dsimp only [First.InRange]
      omega
  | goto k =>
    cases h
    rw [hi_mkWord] at hword
    have : (0xEF#8).toNat = 0xEF := rfl
    dsimp only [First.InRange]
    omega
  | lfsr ff k =>
    obtain ⟨rfl, hff⟩ := h
    rw [hi_mkWord, lo_mkWord] at hword
    have : (0xEE#8).toNat = 0xEE := rfl
    have : (0#2 ++ ff ++ k : Byte).toNat ≤ 0x2F := by revert ff k; decide
    dsimp only [First.InRange]
    omega

/-- Settles O5: the ranges of the first word and, for each, the form asked of the second. -/
theorem malformedSecondWords : Obligations.MalformedSecondWords := by
  intro b x y rest
  have hread := reads_decodeFirst b x.hi x.lo
  rw [mkWord_hi_lo] at hread
  rw [decodeOn_malformed_iff, high_nibble_of_word]
  cases hf : decodeFirst b x.hi x.lo with
  | one i =>
    have hform : ¬ TwoWordForm x := fun h => by
      have := (isTwoWord_decodeFirst_iff (b := b) (by rw [hf]; nofun)).2 h
      rw [hf] at this
      cases this
    rw [twoWordForm_iff_range] at hform
    exact iff_of_false nofun (by omega)
  | illegal =>
    have hrange := (unassignedWords b x []).1 (decodeOn_illegal hf [])
    exact iff_of_false nofun (by omega)
  | movff | call | goto | lfsr =>
    rw [hf] at hread
    have hrange := hread.inRange
    have hhi : y.hi = y.extractLsb' 8 8 := rfl
    simp only [First.InRange] at hrange
    simp only [First.isTwoWord, decodeSecond, true_and, ite_eq_right_iff, reduceCtorEq, imp_false]
    grind
end Sys2Proof
end

section
/-! Proofs of the encoding family: the decoder and the opcode table; example words. -/

namespace Sys2Proof

/-! ### Rows as ranges of words -/

/-- The number of first words a row owns: those its mask leaves open, less the last sixteen of LFSR's (R133). -/
def OpcodeRow.size (r : OpcodeRow) : Nat := if r.pattern = 0xEE00 then 0x30 else 2 ^ 16 - r.mask

/-- Clearing the low `k` bits of a number of `m` bits. -/
theorem land_highMask {m n : Nat} (hn : n < 2 ^ m) {k : Nat} (hk : k ≤ m) :
    Nat.land n (2 ^ m - 2 ^ k) = n / 2 ^ k * 2 ^ k := by
  have hmask : 2 ^ m - 2 ^ k = 2 ^ k * (2 ^ (m - k) - 1) := by
    rw [Nat.mul_sub, ← Nat.pow_add, Nat.add_sub_cancel' hk, Nat.mul_one]
  apply Nat.eq_of_testBit_eq
  intro j
  rw [hmask]
  show (n &&& _).testBit j = _
  rw [Nat.testBit_and, Nat.mul_comm (n / 2 ^ k), Nat.testBit_two_pow_mul, Nat.testBit_two_pow_mul,
    Nat.testBit_two_pow_sub_one, Nat.testBit_div_two_pow]
  by_cases hj : k ≤ j
  · by_cases hm : j < m
    · simp [hj, show j - k < m - k by omega]
    · have : n.testBit j = false :=
        Nat.testBit_lt_two_pow (Nat.lt_of_lt_of_le hn (Nat.pow_le_pow_right (by decide) (by omega)))
      simp [hj, this]
  · simp [hj]

/-- A row's mask keeps the high bits of a word, and its pattern has no others. -/
theorem opcodeRows_shape :
    ∀ r ∈ opcodeRows, ∃ k ≤ 12, r.mask = 2 ^ 16 - 2 ^ k ∧ r.pattern % 2 ^ k = 0 ∧ (r.pattern = 0xEE00 → k = 6) := by
  decide

/-- Every row owns a range of words. -/
theorem owns_iff {r : OpcodeRow} (hr : r ∈ opcodeRows) (x : IWord) :
    r.owns x = true ↔ r.pattern ≤ x.toNat ∧ x.toNat < r.pattern + r.size := by
  obtain ⟨k, hk, hmask, hpat, hlfsr⟩ := opcodeRows_shape r hr
  have hx : Nat.land x.toNat r.mask = x.toNat / 2 ^ k * 2 ^ k := by
    rw [hmask, land_highMask x.isLt (by omega)]
  have hrange : x.toNat / 2 ^ k * 2 ^ k = r.pattern ↔ r.pattern ≤ x.toNat ∧ x.toNat < r.pattern + 2 ^ k := by
    obtain ⟨p, hp⟩ := Nat.dvd_of_mod_eq_zero hpat
    rw [hp, Nat.mul_comm, Nat.mul_right_inj (Nat.two_pow_pos k).ne', Nat.div_eq_iff (Nat.two_pow_pos k), Nat.mul_comm p]
    have := Nat.two_pow_pos k
    omega
  rw [OpcodeRow.owns, hx, OpcodeRow.size, hmask]
  have hk16 : 2 ^ k ≤ 2 ^ 16 := Nat.pow_le_pow_right (by decide) (by omega)
  by_cases hl : r.pattern = 0xEE00
  · obtain rfl := hlfsr hl
    have key : ∀ j < 64, (Nat.land (0xEE00 + j) 0x30 == 0x30) = decide (0x30 ≤ j) := by decide
    rw [hl] at hrange
    simp only [hl, Bool.and_eq_true, beq_iff_eq, hrange, if_true, beq_self_eq_true, Bool.true_and, Bool.not_eq_true']
    constructor
    · rintro ⟨hr, hc⟩
      have := key (x.toNat - 0xEE00) (by omega)
      rw [Nat.add_sub_cancel' hr.1, hc] at this
      have := of_decide_eq_false this.symm
      omega
    · intro hr
      refine ⟨by omega, ?_⟩
      have := key (x.toNat - 0xEE00) (by omega)
      rw [Nat.add_sub_cancel' hr.1] at this
      rw [this, decide_eq_false (by omega)]
  · simp only [Bool.and_eq_true, beq_iff_eq, hrange, hl, if_false]
    rw [Nat.sub_sub_self hk16]
    simp [hl]

/-- The rows of a device. -/
def deviceRows (b : Bool) : List OpcodeRow :=
  rowsDataMovement ++ rowsArithmetic ++ rowsLogic ++ rowsBits ++ rowsControl ++ (if b then rowsSecondary else [])

theorem deviceRows_subset (b : Bool) : ∀ r ∈ deviceRows b, r ∈ opcodeRows := by
  cases b <;> decide

/-- Two rows share no word. -/
def OpcodeRow.Apart (r r' : OpcodeRow) : Prop := r.pattern + r.size ≤ r'.pattern ∨ r'.pattern + r'.size ≤ r.pattern

theorem opcodeRows_apart : opcodeRows.Pairwise OpcodeRow.Apart := by
  unfold OpcodeRow.Apart
  decide

theorem row_unique {r r' : OpcodeRow} (hr : r ∈ opcodeRows) (hr' : r' ∈ opcodeRows) {x : IWord}
    (h : r.owns x = true) (h' : r'.owns x = true) : r = r' := by
  rw [owns_iff hr] at h
  rw [owns_iff hr'] at h'
  by_contra hne
  have : Std.Symm OpcodeRow.Apart := ⟨fun _ _ => Or.symm⟩
  have happart := opcodeRows_apart.forall hr hr' hne
  unfold OpcodeRow.Apart at happart
  omega

/-- The words R142 leaves unassigned, as ranges: from a word up to, and not including, another. -/
def unassignedRanges (b : Bool) : List (Nat × Nat) :=
  [(0x0001, 0x0003), (0x0014, 0x00FF), (0x0110, 0x0200), (0xE800, 0xEC00), (0xEE30, 0xEF00)] ++
    if b then [] else [(0x0007, 0x0008), (0x5400, 0x5800)]

theorem unassigned_of_illegal {b : Bool} {x : IWord} (h : decodeFirst b x.hi x.lo = .illegal) :
    ∃ p ∈ unassignedRanges b, p.1 ≤ x.toNat ∧ x.toNat < p.2 := by
  have hrange := (unassignedWords b x []).1 (decodeOn_illegal h [])
  cases b <;> simp [unassignedRanges] at hrange ⊢ <;> omega

theorem deviceRows_apart_unassigned (b : Bool) :
    ∀ r ∈ deviceRows b, ∀ p ∈ unassignedRanges b, r.pattern + r.size ≤ p.1 ∨ p.2 ≤ r.pattern := by
  cases b <;> decide

/-- No row owns a word the decoder rejects. -/
theorem not_owns_of_illegal {b : Bool} {x : IWord} (h : decodeFirst b x.hi x.lo = .illegal) {r : OpcodeRow}
    (hr : r ∈ deviceRows b) : r.owns x = false := by
  obtain ⟨p, hp, hx⟩ := unassigned_of_illegal h
  have happart := deviceRows_apart_unassigned b r hr p hp
  rw [Bool.eq_false_iff, ne_eq, owns_iff (deviceRows_subset b r hr)]
  omega

/-! ### The row of an encoding -/

/-- A row of the device that owns a word and has a given mnemonic. -/
def OwnedAs (b : Bool) (x : IWord) (m : String) : Prop := ∃ r ∈ deviceRows b, r.owns x = true ∧ r.mnemonic = m

/-- A row of the device, by its range. -/
theorem ownedAs_of_range {b : Bool} {x : IWord} {m : String} (r : OpcodeRow) (hr : r ∈ deviceRows b) (hm : r.mnemonic = m)
    (hx : r.pattern ≤ x.toNat ∧ x.toNat < r.pattern + r.size) : OwnedAs b x m :=
  ⟨r, hr, (owns_iff (deviceRows_subset b r hr) x).2 hx, hm⟩

theorem mem_deviceRows {b : Bool} {r : OpcodeRow} (h : r ∈ deviceRows false) : r ∈ deviceRows b := by
  revert r; cases b <;> decide

theorem wordByteD_range (op : BitVec 6) (f : Byte) (d a : Bool) :
    op.toNat * 1024 ≤ (wordByteD op f d a).toNat ∧ (wordByteD op f d a).toNat < op.toNat * 1024 + 1024 := by
  have hhi : op.toNat * 4 ≤ (op ++ BitVec.ofBool d ++ BitVec.ofBool a : Byte).toNat ∧
      (op ++ BitVec.ofBool d ++ BitVec.ofBool a : Byte).toNat < op.toNat * 4 + 4 := by revert op d a; decide
  have := f.isLt
  rw [toNat_word, wordByteD, hi_mkWord, lo_mkWord]
  omega

theorem wordByte_range (op : BitVec 7) (f : Byte) (a : Bool) :
    op.toNat * 512 ≤ (wordByte op f a).toNat ∧ (wordByte op f a).toNat < op.toNat * 512 + 512 := by
  have hhi : op.toNat * 2 ≤ (op ++ BitVec.ofBool a : Byte).toNat ∧
      (op ++ BitVec.ofBool a : Byte).toNat < op.toNat * 2 + 2 := by revert op a; decide
  have := f.isLt
  rw [toNat_word, wordByte, hi_mkWord, lo_mkWord]
  omega

theorem wordBit_range (op : BitVec 4) (f : Byte) (b : BitVec 3) (a : Bool) :
    op.toNat * 4096 ≤ (wordBit op f b a).toNat ∧ (wordBit op f b a).toNat < op.toNat * 4096 + 4096 := by
  have hhi : op.toNat * 16 ≤ (op ++ b ++ BitVec.ofBool a : Byte).toNat ∧
      (op ++ b ++ BitVec.ofBool a : Byte).toNat < op.toNat * 16 + 16 := by revert op b a; decide
  have := f.isLt
  rw [toNat_word, wordBit, hi_mkWord, lo_mkWord]
  omega

theorem word12_range (op : BitVec 4) (y : BitVec 12) :
    op.toNat * 4096 ≤ (word12 op y).toNat ∧ (word12 op y).toNat < op.toNat * 4096 + 4096 := by
  have hhi : (op ++ y.extractLsb' 8 4 : Byte).toNat = op.toNat * 16 + (y.extractLsb' 8 4).toNat := toNat_append_eq _ _
  have := (y.extractLsb' 8 4).isLt
  have := (y.extractLsb' 0 8).isLt
  rw [toNat_word, word12, hi_mkWord, lo_mkWord]
  omega

theorem wordBranch11_range (op : BitVec 5) (n : BitVec 11) :
    op.toNat * 2048 ≤ (wordBranch11 op n).toNat ∧ (wordBranch11 op n).toNat < op.toNat * 2048 + 2048 := by
  have hword : (wordBranch11 op n).toNat = op.toNat * 2048 + n.toNat := by
    rw [wordBranch11_eq_append]; exact toNat_append_eq _ _
  omega

theorem mkWord_range (hi lo : Byte) :
    hi.toNat * 256 ≤ (mkWord hi lo).toNat ∧ (mkWord hi lo).toNat < hi.toNat * 256 + 256 := by
  have := lo.isLt
  rw [toNat_word, hi_mkWord, lo_mkWord]
  omega

/-- The word of a whole instruction is in the row of its mnemonic: a range for each format. -/
theorem ownedAs_instr {b : Bool} {i : Instr} {x : IWord} (he : encode i = [x]) (hw : i.wellFormedOn b = true) :
    OwnedAs b x i.mnemonic := by
  cases i with
  | movff | lfsr | call | goto => cases he
  | movf f d a | swapf f d a | addwf f d a | addwfc f d a | subwf f d a | subwfb f d a | decf f d a
  | decfsz f d a | dcfsnz f d a | incf f d a | incfsz f d a | infsnz f d a | andwf f d a | comf f d a
  | iorwf f d a | rlcf f d a | rlncf f d a | rrcf f d a | rrncf f d a | xorwf f d a =>
    cases he
    exact ownedAs_of_range ⟨_, 0xFC00, _⟩ (mem_deviceRows (by decide)) rfl (wordByteD_range _ f d a)
  | subfwb f d a =>
    obtain rfl : b = true := hw
    cases he
    exact ownedAs_of_range ⟨_, 0xFC00, _⟩ (by decide) rfl (wordByteD_range _ f d a)
  | movwf f a | mulwf f a | clrf f a | setf f a | cpfseq f a | cpfsgt f a | cpfslt f a | negf f a | tstfsz f a =>
    cases he
    exact ownedAs_of_range ⟨_, 0xFE00, _⟩ (mem_deviceRows (by decide)) rfl (wordByte_range _ f a)
  | bcf f bit a | bsf f bit a | btfsc f bit a | btfss f bit a | btg f bit a =>
    cases he
    exact ownedAs_of_range ⟨_, 0xF000, _⟩ (mem_deviceRows (by decide)) rfl (wordBit_range _ f bit a)
  | nopF y =>
    cases he
    exact ownedAs_of_range ⟨_, 0xF000, _⟩ (mem_deviceRows (by decide)) rfl (word12_range _ y)
  | bra n | rcall n =>
    cases he
    exact ownedAs_of_range ⟨_, 0xF800, _⟩ (mem_deviceRows (by decide)) rfl (wordBranch11_range _ n)
  | movlw k | addlw k | mullw k | sublw k | andlw k | iorlw k | xorlw k | retlw k | bc k | bn k | bnc k | bnn k
  | bnov k | bnz k | bov k | bz k =>
    cases he
    exact ownedAs_of_range ⟨_, 0xFF00, _⟩ (mem_deviceRows (by decide)) rfl (mkWord_range _ k)
  | movlb k =>
    cases he
    have hk : (mkWord 0x01#8 (0#4 ++ k)).toNat = 0x100 + k.toNat := by
      clear hw; revert k; decide
    exact ownedAs_of_range ⟨_, 0xFFF0, 0x0100⟩ (mem_deviceRows (by decide)) rfl (by rw [hk]; simp [OpcodeRow.size]; omega)
  | ret s =>
    cases he
    exact ownedAs_of_range ⟨_, 0xFFFE, 0x0012⟩ (mem_deviceRows (by decide)) rfl (by cases s <;> decide)
  | retfie s =>
    cases he
    exact ownedAs_of_range ⟨_, 0xFFFE, 0x0010⟩ (mem_deviceRows (by decide)) rfl (by cases s <;> decide)
  | daw =>
    obtain rfl : b = true := hw
    cases he
    exact ownedAs_of_range ⟨_, 0xFFFF, (mkWord 0x00#8 _).toNat⟩ (by decide) rfl ⟨le_rfl, Nat.lt_succ_self _⟩
  | _ =>
    cases he
    exact ownedAs_of_range ⟨_, 0xFFFF, (mkWord 0x00#8 _).toNat⟩ (mem_deviceRows (by decide)) rfl
      ⟨le_rfl, Nat.lt_succ_self _⟩

/-- A first word the decoder accepts is in the row whose mnemonic it gives. -/
theorem ownedAs_decodeFirst {b : Bool} {x : IWord} (hok : decodeFirst b x.hi x.lo ≠ .illegal) :
    ∃ r ∈ deviceRows b, r.owns x = true ∧ (decodeFirst b x.hi x.lo).mnemonic? = some r.mnemonic := by
  have hread := reads_decodeFirst b x.hi x.lo
  rw [mkWord_hi_lo] at hread
  have hrange := hread.inRange
  suffices h : ∃ m, OwnedAs b x m ∧ (decodeFirst b x.hi x.lo).mnemonic? = some m by
    obtain ⟨m, ⟨r, hr, hx, rfl⟩, hm⟩ := h
    exact ⟨r, hr, hx, hm⟩
  have owned (r : OpcodeRow) (hr : r ∈ deviceRows false) (h : r.pattern ≤ x.toNat ∧ x.toNat < r.pattern + r.size) :
      OwnedAs b x r.mnemonic := ownedAs_of_range r (mem_deviceRows hr) rfl h
  cases hf : decodeFirst b x.hi x.lo <;> simp only [hf, First.InRange] at hread hrange
  case illegal => exact absurd hf hok
  case one i => exact ⟨_, ownedAs_instr hread.1 hread.2, rfl⟩
  case movff => exact ⟨_, owned ⟨"MOVFF", 0xF000, 0xC000⟩ (by decide) (by simp [OpcodeRow.size]; omega), rfl⟩
  case lfsr => exact ⟨_, owned ⟨"LFSR", 0xFFC0, 0xEE00⟩ (by decide) (by simp [OpcodeRow.size]; omega), rfl⟩
  case call => exact ⟨_, owned ⟨"CALL", 0xFE00, 0xEC00⟩ (by decide) (by simp [OpcodeRow.size]; omega), rfl⟩
  case goto => exact ⟨_, owned ⟨"GOTO", 0xFF00, 0xEF00⟩ (by decide) (by simp [OpcodeRow.size]; omega), rfl⟩

/-- Settles O3: a word the decoder accepts is in one row alone, and a word it rejects is in none. -/
theorem decoderFollowsOpcodeTable : Obligations.DecoderFollowsOpcodeTable := by
  intro b x
  change (∀ r ∈ deviceRows b, _) ∧ ((∀ r ∈ deviceRows b, _) → _)
  refine ⟨fun r hr hx => ?_, fun hnone => ?_⟩
  · have hok : decodeFirst b x.hi x.lo ≠ .illegal := fun hill => by
      rw [not_owns_of_illegal hill hr] at hx
      cases hx
    obtain ⟨r', hr', hx', hm⟩ := ownedAs_decodeFirst hok
    rw [hm, row_unique (deviceRows_subset b r hr) (deviceRows_subset b r' hr') hx hx']
  · by_contra hok
    obtain ⟨r, hr, hx, -⟩ := ownedAs_decodeFirst hok
    rw [hnone r hr] at hx
    cases hx

/-! ### Examples -/

/-- Settles O8: each word is decoded in full. -/
theorem exampleWordsDecode : Obligations.ExampleWordsDecode := by
  unfold Obligations.ExampleWordsDecode
  decide
end Sys2Proof
end

section
/-! The instructions by family, and what each family answers, said once for the proofs over all instructions. -/

namespace Sys2Proof

open Machine

/-! ### The file forms -/

/-- An instruction that is the template `fileOp` over an operation on bytes: with the flags it can write, whether it can skip,
and the address it writes. -/
structure FileForm (i : Instr) (f : Byte) (d a : Bool) (alu : Byte → Byte → Status → Byte × FlagWrite)
    (skips : Byte → Bool) : Prop where
  exec_eq : ∀ s, exec i s = outcome (fileOp f d a alu skips s)
  listed : ∀ v w st, WritesListed i (alu v w st).2
  not_skip : cycleClass i ≠ .skip → ∀ r, skips r = false
  written : ∀ s, writtenAddress i s = if d then target (ea f a s) s else none
  file : fileOperand i = some (f, a)
  bytes : i.bytes = 2

theorem writesListed_all {i : Instr} {fw : FlagWrite} (hi : flagsListed i = ⟨true, true, true, true, true⟩)
    (hfw : fw.affects = true) : WritesListed i fw := by
  constructor <;> simp [hi, hfw, listsNoFlag, Status.zero]

theorem writesListed_nothing {i : Instr} (hi : listsNoFlag i) : WritesListed i .nothing := by
  exact ⟨fun _ => rfl, fun _ => rfl, fun _ => rfl, fun _ => rfl, fun _ => rfl, by simp [hi]⟩

theorem writesListed_flagsZN {i : Instr} (hi : flagsListed i = ⟨true, false, true, false, false⟩) (r : Byte) :
    WritesListed i (flagsZN r) := by
  constructor <;> simp [hi, flagsZN, FlagWrite.affects, listsNoFlag, Status.zero]

theorem writesListed_flagsZN_c {i : Instr} (hi : flagsListed i = ⟨true, false, true, false, true⟩) (r : Byte) (c : Bool) :
    WritesListed i { flagsZN r with c := some c } := by
  constructor <;> simp [hi, flagsZN, FlagWrite.affects, listsNoFlag, Status.zero]

theorem writtenAddress_of_aluForms {f : Byte} {d a : Bool} {i : Instr} (h : i ∈ aluForms f d a) (s : State) :
    writtenAddress i s = if d then target (ea f a s) s else none := by
  have hall : ∀ d, ∀ i ∈ aluForms f d a, writtenAddress i s = if d then target (ea f a s) s else none := by
    simp only [aluForms, List.forall_mem_cons]
    intro d
    cases d <;> simp [writtenAddress, destination]
  exact hall d i h

theorem fileForm_of_aluForms {f : Byte} {d a : Bool} {i : Instr} (h : i ∈ aluForms f d a) :
    ∃ alu skips, FileForm i f d a alu skips := by
  cases i with
  | addwf | addwfc | subwf | subwfb | subfwb | decf | incf =>
    obtain ⟨rfl, rfl, rfl⟩ : _ ∧ _ ∧ _ := by simpa [aluForms] using h
    exact ⟨_, _, fun _ => rfl, fun _ _ _ => writesListed_all rfl rfl, fun _ _ => rfl,
      writtenAddress_of_aluForms h, rfl, rfl⟩
  | movf | andwf | iorwf | xorwf | comf | rlncf | rrncf =>
    obtain ⟨rfl, rfl, rfl⟩ : _ ∧ _ ∧ _ := by simpa [aluForms] using h
    exact ⟨_, _, fun _ => rfl, fun _ _ _ => writesListed_flagsZN rfl _, fun _ _ => rfl,
      writtenAddress_of_aluForms h, rfl, rfl⟩
  | rlcf | rrcf =>
    obtain ⟨rfl, rfl, rfl⟩ : _ ∧ _ ∧ _ := by simpa [aluForms] using h
    exact ⟨_, _, fun _ => rfl, fun _ _ _ => writesListed_flagsZN_c rfl _ _, fun _ _ => rfl,
      writtenAddress_of_aluForms h, rfl, rfl⟩
  | swapf =>
    obtain ⟨rfl, rfl, rfl⟩ : _ ∧ _ ∧ _ := by simpa [aluForms] using h
    exact ⟨_, _, fun _ => rfl, fun _ _ _ => writesListed_nothing rfl, fun _ _ => rfl,
      writtenAddress_of_aluForms h, rfl, rfl⟩
  | decfsz | dcfsnz | incfsz | infsnz =>
    obtain ⟨rfl, rfl, rfl⟩ : _ ∧ _ ∧ _ := by simpa [aluForms] using h
    exact ⟨_, _, fun _ => rfl, fun _ _ _ => writesListed_nothing rfl, fun hc => absurd rfl hc,
      writtenAddress_of_aluForms h, rfl, rfl⟩
  | _ => simp [aluForms] at h

theorem fileForm_of_modifyForms {f : Byte} {b : BitVec 3} {a : Bool} {i : Instr} (h : i ∈ modifyForms f b a) :
    ∃ alu skips, FileForm i f true a alu skips := by
  cases i with
  | negf =>
    obtain ⟨rfl, rfl⟩ : _ ∧ _ := by simpa [modifyForms] using h
    exact ⟨_, _, fun _ => rfl, fun _ _ _ => writesListed_all rfl rfl, fun _ _ => rfl, fun _ => rfl, rfl, rfl⟩
  | bcf | bsf | btg =>
    obtain ⟨rfl, rfl, rfl⟩ : _ ∧ _ ∧ _ := by simpa [modifyForms] using h
    exact ⟨_, _, fun _ => rfl, fun _ _ _ => writesListed_nothing rfl, fun _ _ => rfl, fun _ => rfl, rfl, rfl⟩
  | _ => simp [modifyForms] at h

/-- An instruction that is the template `fileStore`, with the flags it writes. -/
structure StoreForm (i : Instr) (f : Byte) (a : Bool) (v : State → Byte) (fw : FlagWrite) : Prop where
  exec_eq : ∀ s, exec i s = outcome (fileStore f a (v s) fw s)
  listed : WritesListed i fw
  not_skip : cycleClass i ≠ .skip
  written : ∀ s, writtenAddress i s = target (ea f a s) s
  file : fileOperand i = some (f, a)
  bytes : i.bytes = 2

theorem storeForm_of_storeForms {f : Byte} {a : Bool} {i : Instr} (h : i ∈ storeForms f a) :
    ∃ v fw, StoreForm i f a v fw := by
  cases i with
  | movwf =>
    obtain ⟨rfl, rfl⟩ : _ ∧ _ := by simpa [storeForms] using h
    exact ⟨fun s => s.w, _, fun _ => rfl, writesListed_nothing rfl, nofun, fun _ => rfl, rfl, rfl⟩
  | setf =>
    obtain ⟨rfl, rfl⟩ : _ ∧ _ := by simpa [storeForms] using h
    exact ⟨fun _ => 0xFF#8, _, fun _ => rfl, writesListed_nothing rfl, nofun, fun _ => rfl, rfl, rfl⟩
  | clrf f' a' =>
    obtain ⟨rfl, rfl⟩ : _ ∧ _ := by simpa [storeForms] using h
    have hlisted : WritesListed (.clrf f' a') { z := some true } := by
      constructor <;> simp [flagsListed, listsNoFlag, Status.zero, FlagWrite.affects]
    exact ⟨fun _ => 0#8, _, fun _ => rfl, hlisted, nofun, fun _ => rfl, rfl, rfl⟩
  | _ => simp [storeForms] at h

/-- An instruction that is the template `fileTest`. -/
structure TestForm (i : Instr) (f : Byte) (a : Bool) (test : Byte → Byte → Bool) : Prop where
  exec_eq : ∀ s, exec i s = outcome (fileTest f a test s)
  skip : cycleClass i = .skip
  written : ∀ s, writtenAddress i s = none
  file : fileOperand i = some (f, a)

theorem testForm_of_testForms {f : Byte} {b : BitVec 3} {a : Bool} {i : Instr} (h : i ∈ testForms f b a) :
    ∃ test, TestForm i f a test := by
  simp only [testForms, List.mem_cons, List.mem_nil_iff, or_false] at h
  rcases h with rfl | rfl | rfl | rfl | rfl | rfl <;> exact ⟨_, fun _ => rfl, rfl, fun _ => rfl, rfl⟩

/-! ### The families of instructions -/

/-- The instructions without a data operand, RESET left out: literal, table, control and pointer-load instructions. -/
def Plain (i : Instr) : Prop := fileOperand i = none ∧ (∀ fs fd, i ≠ .movff fs fd) ∧ i ≠ .reset

/-- Every instruction is of one of these families. -/
theorem instr_family (i : Instr) :
    (∃ f d a alu skips, FileForm i f d a alu skips) ∨ (∃ f a v fw, StoreForm i f a v fw) ∨
      (∃ f a test, TestForm i f a test) ∨ (∃ f a, i = .mulwf f a) ∨ (∃ fs fd, i = .movff fs fd) ∨ i = .reset ∨
      Plain i := by
  cases i with
  | movf f d a | swapf f d a | addwf f d a | addwfc f d a | subwf f d a | subwfb f d a | subfwb f d a | decf f d a
  | decfsz f d a | dcfsnz f d a | incf f d a | incfsz f d a | infsnz f d a | andwf f d a | comf f d a
  | iorwf f d a | rlcf f d a | rlncf f d a | rrcf f d a | rrncf f d a | xorwf f d a =>
    exact .inl ⟨f, d, a, fileForm_of_aluForms (by simp [aluForms])⟩
  | negf f a => exact .inl ⟨f, true, a, fileForm_of_modifyForms (b := 0#3) (by simp [modifyForms])⟩
  | bcf f b a | bsf f b a | btg f b a => exact .inl ⟨f, true, a, fileForm_of_modifyForms (b := b) (by simp [modifyForms])⟩
  | movwf f a | clrf f a | setf f a => exact .inr (.inl ⟨f, a, storeForm_of_storeForms (by simp [storeForms])⟩)
  | cpfseq f a | cpfsgt f a | cpfslt f a | tstfsz f a =>
    exact .inr (.inr (.inl ⟨f, a, testForm_of_testForms (b := 0#3) (by simp [testForms])⟩))
  | btfsc f b a | btfss f b a => exact .inr (.inr (.inl ⟨f, a, testForm_of_testForms (b := b) (by simp [testForms])⟩))
  | mulwf f a => exact .inr (.inr (.inr (.inl ⟨f, a, rfl⟩)))
  | movff fs fd => exact .inr (.inr (.inr (.inr (.inl ⟨fs, fd, rfl⟩))))
  | reset => exact .inr (.inr (.inr (.inr (.inr (.inl rfl)))))
  | _ => exact .inr (.inr (.inr (.inr (.inr (.inr ⟨rfl, nofun, nofun⟩)))))

/-! ### What each family answers -/

/-- The result of the template `fileOp`, once it completes. -/
def fileOpResult (f : Byte) (d a : Bool) (alu : Byte → Byte → Status → Byte × FlagWrite) (skips : Byte → Bool)
    (s : State) : State :=
  let out := alu (operand (ea f a s) s) s.w s.status
  let u := stored d (target (ea f a s) s) out.1 out.2 ((afterRead (ea f a s) s).advance 2)
  if skips out.1 then u.jump (s.pc + 4#21) else u

theorem FileForm.next_iff {i : Instr} {f : Byte} {d a : Bool} {alu : Byte → Byte → Status → Byte × FlagWrite}
    {skips : Byte → Bool} (h : FileForm i f d a alu skips) {s t : State} :
    exec i s = .next t ↔ FileOk f d a s ∧ t = fileOpResult f d a alu skips s := by
  rw [h.exec_eq, outcome_next_iff, fileOp_ok_iff, fileOpResult]

theorem StoreForm.next_iff {i : Instr} {f : Byte} {a : Bool} {v : State → Byte} {fw : FlagWrite}
    (h : StoreForm i f a v fw) {s t : State} :
    exec i s = .next t ↔ Writable (ea f a s) s ∧
      t = stored true (target (ea f a s) s) (v s) fw ((bump (ea f a s) s).advance 2) := by
  rw [h.exec_eq, outcome_next_iff, fileStore_ok_iff]

theorem TestForm.next_iff {i : Instr} {f : Byte} {a : Bool} {test : Byte → Byte → Bool} (h : TestForm i f a test)
    {s t : State} :
    exec i s = .next t ↔ Readable (ea f a s) s ∧
      t = (afterRead (ea f a s) s).advance (if test (operand (ea f a s) s) s.w then 4 else 2) := by
  rw [h.exec_eq, outcome_next_iff, fileTest_ok_iff]

theorem readOperand_of_readable {A : DAddr} {s : State} (h : Readable A s) :
    readOperand A s = .ok (target A s, operand A s, afterRead A s) := readOperand_ok_iff.2 ⟨h, rfl⟩

theorem readable_of_ok {A : DAddr} {s : State} {p : Target × Byte × State} (h : readOperand A s = .ok p) :
    Readable A s := (readOperand_ok_iff.1 h).1

theorem exec_mulwf_next_iff {f : Byte} {a : Bool} {s t : State} :
    exec (.mulwf f a) s = .next t ↔ Readable (ea f a s) s ∧
      t = ((afterRead (ea f a s) s).setProd (mul8 s.w (operand (ea f a s) s))).advance 2 := by
  show execMulwf f a s = _ ↔ _
  unfold execMulwf
  cases hr : readOperand (ea f a s) s with
  | error e =>
    have hn : ¬ Readable (ea f a s) s := fun h => by rw [readOperand_of_readable h] at hr; cases hr
    simp [hn]
  | ok p =>
    obtain ⟨hread, rfl⟩ := readOperand_ok_iff.1 hr
    simp [hread, eq_comm]

theorem exec_movff_next_iff {fs fd : DAddr} {s t : State} :
    exec (.movff fs fd) s = .next t ↔ MovffOk fs fd s ∧
      t = poke (target fd ((afterRead fs s).advance 4)) (operand fs s) (bump fd ((afterRead fs s).advance 4)) := by
  show execMovff fs fd s = _ ↔ _
  unfold execMovff MovffOk
  cases hforb : movffForbidden fd with
  | true => simp
  | false =>
    by_cases hpcl : fs = 0xFF9#12
    · simp [hpcl]
    cases hr : readOperand fs s with
    | error e =>
      have hn : ¬ Readable fs s := fun h => by rw [readOperand_of_readable h] at hr; cases hr
      simp [hpcl, hn]
    | ok p =>
      obtain ⟨hread, rfl⟩ := readOperand_ok_iff.1 hr
      simp only [Bool.false_eq_true, if_false, hpcl]
      cases hres : resolve fd ((afterRead fs s).advance 4) with
      | error e =>
        have hn : ¬ Resolvable fd ((afterRead fs s).advance 4) := fun h => by
          rw [resolve_ok_iff.2 ⟨h, rfl⟩] at hres; cases hres
        simp [Writable, Readable, hn]
      | ok q =>
        obtain ⟨hok, rfl⟩ := resolve_ok_iff.1 hres
        simp only [outcome_next_iff, writeData_ok_iff, TargetOk, Writable, Readable, hok, bump_sp]
        unfold Readable at hread
        tauto
end Sys2Proof
end

section
/-! The instructions without a data operand: what each answers, and what of the state it can change. -/

namespace Sys2Proof

open Machine

/-! ### The control and table instructions that can stop -/

theorem tableReadThen_next_iff {after : State → State} {s t : State} :
    tableReadThen after s = .next t ↔
      s.tblptr.toNat < Config.progMemBytes ∧ t = (after { s with tablat := s.progByte s.tblptr.toNat }).advance 2 := by
  unfold tableReadThen
  cases hr : tableRead s with
  | error e =>
    have hn : ¬ s.tblptr.toNat < Config.progMemBytes := fun h => by rw [tableRead_ok_iff.2 ⟨h, rfl⟩] at hr; cases hr
    simp [hn]
  | ok s1 =>
    obtain ⟨h, rfl⟩ := tableRead_ok_iff.1 hr
    simp [h, eq_comm]

/-- The shape of CALL, RCALL and PUSH: push a value, then go on from the state with it pushed. -/
def pushThen (v : BitVec 21) (k : State → State) (s : State) : Step :=
  match push v s with
  | .error e => .fault e
  | .ok s1 => .next (k s1)

theorem pushThen_next_iff {v : BitVec 21} {k : State → State} {s t : State} :
    pushThen v k s = .next t ↔ s.sp.toNat + 1 < 31 ∧ t = k (pushed v s) := by
  unfold pushThen
  cases hp : push v s with
  | error e =>
    have hfull := (push_error_iff.1 hp).1
    exact iff_of_false nofun fun h => by omega
  | ok s1 =>
    obtain ⟨hroom, rfl⟩ := push_ok_iff.1 hp
    simp [hroom, eq_comm]

theorem pushThen_fault_iff {v : BitVec 21} {k : State → State} {s : State} {e : Fault} :
    pushThen v k s = .fault e ↔ 31 ≤ s.sp.toNat + 1 ∧ e = .stackOverflow := by
  rw [← push_error_iff (v := v)]
  unfold pushThen
  cases push v s <;> simp

theorem exec_call (k : BitVec 20) (fast : Bool) (s : State) :
    exec (.call k fast) s = pushThen (s.pc + 4#21) (fun s1 => (s1.saveFastIf fast).jump (absTarget k)) s := rfl

theorem exec_rcall (n : BitVec 11) (s : State) :
    exec (.rcall n) s = pushThen (s.pc + 2#21) (fun s1 => s1.jump (relTarget s.pc n)) s := rfl

theorem exec_push (s : State) : exec .push s = pushThen (s.pc + 2#21) (fun s1 => s1.advance 2) s := rfl

/-- The shape of RETURN and RETLW: pop the return address, then go on from the state without it. -/
def popThen (k : BitVec 21 → State → State) (s : State) : Step :=
  match pop s with
  | .error e => .fault e
  | .ok (v, s1) => .next (k v s1)

theorem popThen_next_iff {k : BitVec 21 → State → State} {s t : State} :
    popThen k s = .next t ↔ s.sp ≠ 0#5 ∧ t = k (s.stackEntry s.sp) { s with sp := s.sp - 1#5 } := by
  unfold popThen
  cases hp : pop s with
  | error e => exact iff_of_false nofun fun h => h.1 (pop_error_iff.1 hp).1
  | ok p =>
    obtain ⟨hne, rfl⟩ := pop_ok_iff.1 hp
    simp [hne, eq_comm]

theorem popThen_fault_iff {k : BitVec 21 → State → State} {s : State} {e : Fault} :
    popThen k s = .fault e ↔ s.sp = 0#5 ∧ e = .stackUnderflow := by
  rw [← pop_error_iff]
  unfold popThen
  cases pop s <;> simp

theorem exec_ret (fast : Bool) (s : State) :
    exec (.ret fast) s = popThen (fun v s1 => (s1.jump v).restoreFastIf fast) s := rfl

theorem exec_retlw (k : Byte) (s : State) : exec (.retlw k) s = popThen (fun v s1 => { s1 with w := k }.jump v) s := rfl

theorem exec_pop (s : State) :
    exec .pop s = if s.sp = 0#5 then .fault .stackUnderflow else .next ({ s with sp := s.sp - 1#5 }.advance 2) := rfl

theorem exec_retfie (fast : Bool) (s : State) : exec (.retfie fast) s = outcome (returnFromInterrupt fast s) := rfl

/-! ### The instructions without a data operand -/

/-- The fields the invariant speaks of, other than the pc, are as they were. -/
structure InvFrame (s t : State) : Prop where
  data : t.data = s.data
  prog : t.prog = s.prog
  intcon2 : t.intcon2 = s.intcon2
  intcon3 : t.intcon3 = s.intcon3
  pir1 : t.pir1 = s.pir1
  pie1 : t.pie1 = s.pie1
  ipr1 : t.ipr1 = s.ipr1
  pir2 : t.pir2 = s.pir2
  pie2 : t.pie2 = s.pie2
  ipr2 : t.ipr2 = s.ipr2
  stkful : t.stkful = s.stkful
  stkunf : t.stkunf = s.stkunf
  flashWriteBusy : t.flashWriteBusy = s.flashWriteBusy

/-- What an instruction without a data operand can change of the fields the whole-machine rules speak of. -/
structure PlainResult (i : Instr) (s t : State) : Prop where
  frame : InvFrame s t
  pc_even : t.pc.getLsbD 0 = false
  pc : transfers i = false → t.pc = evenPc (s.pc + BitVec.ofNat 21 i.bytes)
  intcon : (∀ b, i ≠ .retfie b) → t.intcon = s.intcon
  isrLevel : (∀ b, i ≠ .retfie b) → t.isrLevel = s.isrLevel
  flags : i ≠ .ret true → i ≠ .retfie true → FlagsKept i s t

theorem Machine.FlagsKept.of_status {i : Instr} {s t : State} (h : t.status = s.status) : FlagsKept i s t := by
  constructor <;> simp [h]

theorem invFrame_pushed (v : BitVec 21) (s : State) : InvFrame s (pushed v s) := by
  constructor <;> simp [pushed]

theorem plainResult_literalOp {i : Instr} {alu : Byte → Byte × FlagWrite} {s : State} (hlen : i.bytes = 2)
    (hlisted : WritesListed i (alu s.w).2) : PlainResult i s (literalOp alu s) where
  frame := by constructor <;> rfl
  pc_even := evenPc_bit0 _
  pc _ := by rw [hlen]; rfl
  intcon _ := rfl
  isrLevel _ := rfl
  flags _ _ := hlisted.kept rfl

/-- A state that differs in fields no rule speaks of, and is then moved on. -/
theorem plainResult_of_eq {i : Instr} {s t : State} (hframe : InvFrame s t) (hintcon : t.intcon = s.intcon)
   (hisr : t.isrLevel = s.isrLevel) (hstatus : t.status = s.status) (hpc : t.pc.getLsbD 0 = false)
   (hnext : transfers i = false → t.pc = evenPc (s.pc + BitVec.ofNat 21 i.bytes)) : PlainResult i s t where
  frame := hframe
  pc_even := hpc
  pc := hnext
  intcon _ := hintcon
  isrLevel _ := hisr
  flags _ _ := .of_status hstatus

theorem plainResult_branchIf {i : Instr} {taken : Bool} {n : BitVec 8} {s t : State} (hi : transfers i = true)
    (h : branchIf taken n s = .next t) : PlainResult i s t := by
  cases h
  cases taken <;> exact plainResult_of_eq (by constructor <;> rfl) rfl rfl rfl (evenPc_bit0 _) (by simp [hi])

/-- The pointer steps of the table instructions and the table read itself leave what the rules speak of. -/
theorem plainResult_tableRead {i : Instr} (hi : i.bytes = 2) {after : State → State} {s t : State}
    (hafter : ∀ s, ∃ p, after s = { s with tblptr := p }) (h : tableReadThen after s = .next t) : PlainResult i s t := by
  obtain ⟨-, rfl⟩ := tableReadThen_next_iff.1 h
  obtain ⟨p, hp⟩ := hafter { s with tablat := s.progByte s.tblptr.toNat }
  rw [hp]
  exact plainResult_of_eq (by constructor <;> rfl) rfl rfl rfl (evenPc_bit0 _) fun _ => by rw [hi]; rfl

/-- Leaving an interrupt changes INTCON and the levels in service alone. -/
theorem leaveIsr_eq (s : State) :
    s.leaveIsr = { s with intcon := s.leaveIsr.intcon, isrLevel := s.leaveIsr.isrLevel } := by
  unfold State.leaveIsr
  split <;> rfl

/-- A state that differs in INTCON and the levels in service too, as RETFIE leaves it. -/
theorem plainResult_retfie {b : Bool} {s t : State} (hframe : InvFrame s t) (hpc : t.pc.getLsbD 0 = false)
    (hstatus : b = false → t.status = s.status) : PlainResult (.retfie b) s t where
  frame := hframe
  pc_even := hpc
  pc := nofun
  intcon h := absurd rfl (h b)
  isrLevel h := absurd rfl (h b)
  flags _ h := .of_status (hstatus (by cases b <;> simp_all))

theorem plain_result {i : Instr} (hi : Plain i) {s t : State} (h : exec i s = .next t) : PlainResult i s t := by
  obtain ⟨hfile, hmovff, hreset⟩ := hi
  cases i with
  | movff => exact absurd rfl (hmovff _ _)
  | reset => exact absurd rfl hreset
  | addlw | sublw => cases h; exact plainResult_literalOp rfl (writesListed_all rfl rfl)
  | andlw | iorlw | xorlw => cases h; exact plainResult_literalOp rfl (writesListed_flagsZN rfl _)
  | daw =>
    cases h
    refine plainResult_literalOp rfl ?_
    constructor <;> simp [flagsListed, listsNoFlag, Status.zero, FlagWrite.affects]
  | movlb | movlw | mullw | clrwdt | sleep | nop | nopF | tblwt | tblwtPostInc | tblwtPostDec | tblwtPreInc =>
    cases h
    exact plainResult_of_eq (by constructor <;> rfl) rfl rfl rfl (evenPc_bit0 _) fun _ => rfl
  | bc | bn | bnc | bnn | bnov | bnz | bov | bz => exact plainResult_branchIf rfl h
  | bra | goto =>
    cases h
    exact plainResult_of_eq (by constructor <;> rfl) rfl rfl rfl (evenPc_bit0 _) nofun
  | lfsr ff k =>
    change execLfsr ff k s = .next t at h
    unfold execLfsr at h
    split at h <;> cases h <;>
      exact plainResult_of_eq (by constructor <;> rfl) rfl rfl rfl (evenPc_bit0 _) fun _ => rfl
  | tblrd | tblrdPostInc | tblrdPostDec => exact plainResult_tableRead rfl (fun _ => ⟨_, rfl⟩) h
  | tblrdPreInc =>
    obtain ⟨-, rfl⟩ := tableReadThen_next_iff.1 h
    exact plainResult_of_eq (by constructor <;> rfl) rfl rfl rfl (evenPc_bit0 _) fun _ => rfl
  | call k fast =>
    obtain ⟨-, rfl⟩ := pushThen_next_iff.1 h
    cases fast <;> exact plainResult_of_eq (by constructor <;> simp [State.saveFastIf, pushed])
      (by simp [State.saveFastIf, pushed]) (by simp [State.saveFastIf, pushed]) (by simp [State.saveFastIf, pushed])
      (evenPc_bit0 _) nofun
  | rcall =>
    obtain ⟨-, rfl⟩ := pushThen_next_iff.1 h
    exact plainResult_of_eq (by constructor <;> simp [pushed]) (by simp [pushed]) (by simp [pushed]) (by simp [pushed])
      (evenPc_bit0 _) nofun
  | push =>
    obtain ⟨-, rfl⟩ := pushThen_next_iff.1 h
    exact plainResult_of_eq (by constructor <;> simp [pushed]) (by simp [pushed]) (by simp [pushed]) (by simp [pushed])
      (evenPc_bit0 _) (fun _ => by simp [pushed]; rfl)
  | pop =>
    rw [exec_pop] at h
    split at h
    · cases h
    · cases h
      exact plainResult_of_eq (by constructor <;> rfl) rfl rfl rfl (evenPc_bit0 _) fun _ => rfl
  | ret fast =>
    obtain ⟨-, rfl⟩ := popThen_next_iff.1 h
    cases fast
    · exact plainResult_of_eq (by constructor <;> rfl) rfl rfl rfl (evenPc_bit0 _) nofun
    · exact ⟨by constructor <;> rfl, evenPc_bit0 _, nofun, fun _ => rfl, fun _ => rfl, fun hne => absurd rfl hne⟩
  | retlw =>
    obtain ⟨-, rfl⟩ := popThen_next_iff.1 h
    exact plainResult_of_eq (by constructor <;> rfl) rfl rfl rfl (evenPc_bit0 _) nofun
  | retfie fast =>
    obtain ⟨-, rfl⟩ := returnFromInterrupt_ok_iff.1 (outcome_next_iff.1 h)
    rw [leaveIsr_eq]
    cases fast
    · exact plainResult_retfie (by constructor <;> rfl) (evenPc_bit0 _) fun _ => rfl
    · exact plainResult_retfie (by constructor <;> rfl) (evenPc_bit0 _) nofun
  | _ => cases hfile

end Sys2Proof
end

section
/-! What instructions with a data operand change: the core frame and the invariant. -/

namespace Sys2Proof

open Machine

/-! ### What storing a result changes -/

theorem written_cases (d affects : Bool) (T : Target) (r : Byte) (s : State) :
    written d affects T r s = s ∨ (d = true ∧ written d affects T r s = poke T r s) ∨
      (d = false ∧ written d affects T r s = { s with w := r }) := by
  unfold written
  split
  · split
    · exact .inl rfl
    · exact .inr (.inl ⟨by assumption, rfl⟩)
  · exact .inr (.inr ⟨Bool.eq_false_iff.2 (by assumption), rfl⟩)

/-- An instruction that lists a flag never writes STATUS as data (R31). -/
theorem written_status {d affects : Bool} {T : Target} {r : Byte} {s : State}
    (h : d = true → T = some 0xFD8#12 → affects = true) : (written d affects T r s).status = s.status := by
  unfold written
  cases d with
  | false => rfl
  | true =>
    by_cases hT : T = some 0xFD8#12
    · simp [h rfl hT, hT]
    · simp [hT, poke_status hT]

theorem stored_status {d : Bool} {T : Target} {r : Byte} {fw : FlagWrite} {s : State}
    (h : d = true → T = some 0xFD8#12 → fw.affects = true) : (stored d T r fw s).status = s.status.setFlags fw := by
  rw [stored, State.setFlags_status, written_status h]

theorem stored_pc {d : Bool} {T : Target} {r : Byte} {fw : FlagWrite} {s : State} (h : d = true → T ≠ some 0xFF9#12) :
    (stored d T r fw s).pc = s.pc := by
  rw [stored, State.setFlags_pc]
  rcases written_cases d fw.affects T r s with hw | ⟨hd, hw⟩ | ⟨-, hw⟩ <;> rw [hw]
  exact poke_pc (h hd)

theorem stored_intcon {d : Bool} {T : Target} {r : Byte} {fw : FlagWrite} {s : State}
    (h : d = true → T ≠ some 0xFF2#12) : (stored d T r fw s).intcon = s.intcon := by
  rw [stored, State.setFlags_intcon]
  rcases written_cases d fw.affects T r s with hw | ⟨hd, hw⟩ | ⟨-, hw⟩ <;> rw [hw]
  exact poke_intcon (h hd)

/-! ### What no data operand reaches -/

theorem Machine.CoreFrame.trans {s t u : State} (h : CoreFrame s t) (h' : CoreFrame t u) : CoreFrame s u := by
  obtain ⟨⟩ := h
  obtain ⟨⟩ := h'
  constructor <;> simp_all

theorem coreFrame_poke (T : Target) (v : Byte) (s : State) : CoreFrame s (poke T v s) := by
  constructor <;> simp

theorem coreFrame_bump (A : DAddr) (s : State) : CoreFrame s (bump A s) := by
  constructor <;> simp

theorem coreFrame_afterRead (A : DAddr) (s : State) : CoreFrame s (afterRead A s) := by
  constructor <;> simp

theorem coreFrame_jump (v : PAddr) (s : State) : CoreFrame s (s.jump v) := by constructor <;> rfl

theorem coreFrame_advance (n : Nat) (s : State) : CoreFrame s (s.advance n) := coreFrame_jump _ s

theorem coreFrame_stored (d : Bool) (T : Target) (r : Byte) (fw : FlagWrite) (s : State) :
    CoreFrame s (stored d T r fw s) := by
  have hflags : CoreFrame (written d fw.affects T r s) (stored d T r fw s) := by constructor <;> rfl
  refine Machine.CoreFrame.trans ?_ hflags
  rcases written_cases d fw.affects T r s with h | ⟨-, h⟩ | ⟨-, h⟩ <;> rw [h]
  · constructor <;> rfl
  · exact coreFrame_poke T r s
  · constructor <;> rfl

theorem coreFrame_fileOpResult (f : Byte) (d a : Bool) (alu : Byte → Byte → Status → Byte × FlagWrite)
    (skips : Byte → Bool) (s : State) : CoreFrame s (fileOpResult f d a alu skips s) := by
  have hstored := ((coreFrame_afterRead (ea f a s) s).trans (coreFrame_advance 2 _)).trans
    (coreFrame_stored d (target (ea f a s) s) (alu (operand (ea f a s) s) s.w s.status).1
      (alu (operand (ea f a s) s) s.w s.status).2 _)
  unfold fileOpResult
  dsimp only
  split
  · exact hstored.trans (coreFrame_jump _ _)
  · exact hstored

/-- No instruction with a data operand changes program memory, the hidden registers or the environment. -/
theorem exec_coreFrame {i : Instr} (hi : ¬ Plain i) (hr : i ≠ .reset) {s t : State} (h : exec i s = .next t) :
    CoreFrame s t := by
  rcases instr_family i with ⟨f, d, a, alu, skips, hf⟩ | ⟨f, a, v, fw, hf⟩ | ⟨f, a, test, hf⟩ | ⟨f, a, rfl⟩ |
    ⟨fs, fd, rfl⟩ | hreset | hplain
  · obtain ⟨-, rfl⟩ := hf.next_iff.1 h
    exact coreFrame_fileOpResult f d a alu skips s
  · obtain ⟨-, rfl⟩ := hf.next_iff.1 h
    exact ((coreFrame_bump _ _).trans (coreFrame_advance 2 _)).trans (coreFrame_stored _ _ _ _ _)
  · obtain ⟨-, rfl⟩ := hf.next_iff.1 h
    exact (coreFrame_afterRead _ _).trans (coreFrame_advance _ _)
  · obtain ⟨-, rfl⟩ := exec_mulwf_next_iff.1 h
    exact (coreFrame_afterRead _ _).trans (by constructor <;> rfl)
  · obtain ⟨-, rfl⟩ := exec_movff_next_iff.1 h
    exact (((coreFrame_afterRead _ _).trans (coreFrame_advance 4 _)).trans (coreFrame_bump _ _)).trans (coreFrame_poke _ _ _)
  · exact absurd hreset hr
  · exact absurd hplain hi

/-! ### The invariant -/

theorem Machine.State.Inv.of_frame {s t : State} (hs : s.Inv) (h : InvFrame s t) (hpc : t.pc.getLsbD 0 = false) :
    t.Inv := by
  constructor
  · rw [h.data]; exact hs.data_wf
  · rw [h.data]; exact hs.data_cells
  · rw [h.prog]; exact hs.prog_wf
  · rw [h.prog]; exact hs.prog_bound
  · exact hpc
  · rw [h.intcon2]; exact hs.intcon2_bits
  · rw [h.intcon3]; exact hs.intcon3_bits
  · rw [h.pir1, h.pie1, h.ipr1]; exact hs.irq1_bits
  · rw [h.pir2, h.pie2, h.ipr2]; exact hs.irq2_bits
  · rw [h.stkful, h.stkunf]; exact hs.stack_flags
  · rw [h.flashWriteBusy]; exact hs.no_flash_write

theorem inv_jump {s : State} (hs : s.Inv) (v : PAddr) : (s.jump v).Inv :=
  hs.of_frame (by constructor <;> rfl) (evenPc_bit0 _)

theorem inv_advance {s : State} (hs : s.Inv) (n : Nat) : (s.advance n).Inv := inv_jump hs _

theorem inv_bump {s : State} (hs : s.Inv) (A : DAddr) : (bump A s).Inv :=
  hs.of_frame (by constructor <;> simp) (by simpa using hs.pc_even)

theorem inv_afterRead {s : State} (hs : s.Inv) (A : DAddr) : (afterRead A s).Inv :=
  hs.of_frame (by constructor <;> simp) (by simpa using hs.pc_even)

theorem or_masked_iff {x y z m : Byte} : (x ||| y ||| z) &&& m = 0#8 ↔ x &&& m = 0#8 ∧ y &&& m = 0#8 ∧ z &&& m = 0#8 := by
  rw [BitVec.and_comm, BitVec.and_or_distrib_left, BitVec.and_or_distrib_left, BitVec.or_eq_zero_iff,
    BitVec.or_eq_zero_iff, and_assoc]
  simp only [BitVec.and_comm m]

/-- Every bit of PIR1, PIE1 and IPR1 exists on the configured device. -/
theorem irq1_masked (v : Byte) : v &&& ~~~pspMask = 0#8 := by simp [pspMask_eq]

theorem inv_pokeSfr {s : State} (hs : s.Inv) (r : Sfr) (hr : ∀ p, r ≠ .periph p) (a : DAddr) (v : Byte) :
    (pokeSfr r a v s).Inv := by
  obtain ⟨hpir2, hpie2, hipr2⟩ := or_masked_iff.1 hs.irq2_bits
  cases r with
  | periph p => exact absurd rfl (hr p)
  | intcon2 => exact { hs with intcon2_bits := masked_clear _ _ }
  | intcon3 => exact { hs with intcon3_bits := masked_clear _ _ }
  | pir1 | pie1 | ipr1 => exact { hs with irq1_bits := irq1_masked _ }
  | pir2 => exact { hs with irq2_bits := or_masked_iff.2 ⟨masked_clear _ _, hpie2, hipr2⟩ }
  | pie2 => exact { hs with irq2_bits := or_masked_iff.2 ⟨hpir2, masked_clear _ _, hipr2⟩ }
  | ipr2 => exact { hs with irq2_bits := or_masked_iff.2 ⟨hpir2, hpie2, masked_clear _ _⟩ }
  | pcl => exact inv_jump hs _
  | _ => exact hs.of_frame (by constructor <;> simp [pokeSfr]) (by simpa [pokeSfr] using hs.pc_even)

theorem inv_poke {s : State} (hs : s.Inv) (T : Target) (v : Byte) : (poke T v s).Inv := by
  have hdata (a : DAddr) (ha : T = some a) (h : poke T v s = s.setRam a v) : (poke T v s).Inv := by
    have hwf := poke_data_wf (T := T) (v := v) hs.data_wf
    have hcells := poke_data_cells (T := T) (v := v) hs.data_cells
    rw [h] at hwf hcells ⊢
    exact { hs with data_wf := hwf, data_cells := hcells }
  rcases poke_cases T v s with h | ⟨a, ha, -, h⟩ | ⟨a, r, ha, hc, h⟩
  · rw [h]; exact hs
  · exact hdata a ha h
  · by_cases hr : ∃ p, r = .periph p
    · obtain ⟨p, rfl⟩ := hr
      exact hdata a ha h
    · rw [h]; exact inv_pokeSfr hs r (fun p hp => hr ⟨p, hp⟩) a v

theorem inv_stored {s : State} (hs : s.Inv) (d : Bool) (T : Target) (r : Byte) (fw : FlagWrite) :
    (stored d T r fw s).Inv := by
  have hw : (written d fw.affects T r s).Inv := by
    rcases written_cases d fw.affects T r s with h | ⟨-, h⟩ | ⟨-, h⟩ <;> rw [h]
    · exact hs
    · exact inv_poke hs T r
    · exact hs.of_frame (by constructor <;> rfl) hs.pc_even
  exact hw.of_frame (by constructor <;> rfl) hw.pc_even
end Sys2Proof
end

section
/-! Proofs of the whole-machine rules: the invariant, the flags, the pc, program memory, the global interrupt enable. -/

namespace Sys2Proof

open Machine

/-! ### The invariant, over every way a step can end -/

theorem reset_inv : State.reset.Inv where
  data_wf := reset_data_wf
  data_cells := nofun
  prog_wf := reset_prog_wf
  prog_bound := nofun
  pc_even := rfl
  intcon2_bits := by decide
  intcon3_bits := by decide
  irq1_bits := by decide
  irq2_bits := by decide
  stack_flags := ⟨rfl, rfl⟩
  no_flash_write := rfl

/-- Settles O59: the empty memories have the canonical form, the registers their values of R70. -/
theorem resetHasInvariant : Obligations.ResetHasInvariant := reset_inv

theorem inv_warmReset {s : State} (hs : s.Inv) : s.warmReset.Inv :=
  { reset_inv with data_wf := hs.data_wf, data_cells := hs.data_cells, prog_wf := hs.prog_wf, prog_bound := hs.prog_bound }

theorem inv_externalReset {s : State} (hs : s.Inv) (k : ExternalReset) : (s.externalReset k).Inv := by
  cases k with
  | mclr => exact inv_warmReset hs
  | powerOn | brownOut => exact { reset_inv with prog_wf := hs.prog_wf, prog_bound := hs.prog_bound }

theorem inv_applyFlags {s : State} (hs : s.Inv) (m : EnvMove) : (s.applyFlags m).Inv := by
  obtain ⟨hpir2, hpie2, hipr2⟩ := or_masked_iff.1 hs.irq2_bits
  have hflag (on : Bool) (b : BitVec 3) (hb : bitMask b &&& ~~~intcon3Mask = 0#8) :
      (if on then bitMask b else 0#8) &&& ~~~intcon3Mask = 0#8 := by
    cases on
    · simp
    · exact hb
  have hpir2' : (s.applyFlags m).pir2 &&& ~~~irq2Mask = 0#8 := by
    have h : (s.pir2 ||| (m.pir2 &&& irq2Mask) ||| 0#8) &&& ~~~irq2Mask = 0#8 :=
      or_masked_iff.2 ⟨hpir2, masked_clear _ _, rfl⟩
    rwa [BitVec.or_zero] at h
  exact
    { hs with
      intcon3_bits := or_masked_iff.2 ⟨hs.intcon3_bits, hflag _ _ (by decide), hflag _ _ (by decide)⟩
      irq1_bits := irq1_masked _
      irq2_bits := or_masked_iff.2 ⟨hpir2', hpie2, hipr2⟩ }

/-- The environment's move at the boundary keeps the invariant, whether it resets or goes on. -/
theorem inv_boundary {s t : State} (hs : s.Inv) (h : boundary s = .reset t ∨ boundary s = .run t) : t.Inv := by
  have henv (later : List EnvMove) : ({ s with env := later } : State).Inv := { hs with }
  rcases boundary_cases s with ⟨-, hb⟩ | ⟨m, later, -, ⟨k, -, hb⟩ | ⟨-, ⟨-, hb⟩ | ⟨-, -, hb⟩ | ⟨-, -, hb⟩⟩⟩ <;>
    rw [hb] at h <;> rcases h with h | h <;> cases h
  · exact hs
  · exact inv_externalReset (henv later) k
  · exact inv_applyFlags (henv later) m
  · exact { inv_applyFlags (henv later) m with }
  · exact { inv_warmReset (inv_applyFlags (henv later) m) with }

theorem vector_even (lvl : IrqLevel) : lvl.vector.getLsbD 0 = false := by cases lvl <;> decide

theorem inv_takeInterrupt {lvl : IrqLevel} {s t : State} (hs : s.Inv) (h : takeInterrupt lvl s = .ok t) : t.Inv := by
  obtain ⟨-, rfl⟩ := takeInterrupt_ok_iff.1 h
  exact hs.of_frame (by constructor <;> simp [pushed]) (vector_even lvl)

theorem inv_setProd {s : State} (hs : s.Inv) (p : BitVec 16) : (s.setProd p).Inv :=
  hs.of_frame (by constructor <;> rfl) hs.pc_even

theorem inv_exec {i : Instr} {s t : State} (hs : s.Inv) (h : exec i s = .next t) : t.Inv := by
  rcases instr_family i with ⟨f, d, a, alu, skips, hf⟩ | ⟨f, a, v, fw, hf⟩ | ⟨f, a, test, hf⟩ | ⟨f, a, rfl⟩ |
    ⟨fs, fd, rfl⟩ | rfl | hplain
  · obtain ⟨-, rfl⟩ := hf.next_iff.1 h
    have hstored := inv_stored (inv_advance (inv_afterRead hs (ea f a s)) 2) d (target (ea f a s) s)
      (alu (operand (ea f a s) s) s.w s.status).1 (alu (operand (ea f a s) s) s.w s.status).2
    unfold fileOpResult
    dsimp only
    split
    · exact inv_jump hstored _
    · exact hstored
  · obtain ⟨-, rfl⟩ := hf.next_iff.1 h
    exact inv_stored (inv_advance (inv_bump hs _) 2) _ _ _ _
  · obtain ⟨-, rfl⟩ := hf.next_iff.1 h
    exact inv_advance (inv_afterRead hs _) _
  · obtain ⟨-, rfl⟩ := exec_mulwf_next_iff.1 h
    exact inv_advance (inv_setProd (inv_afterRead hs _) _) 2
  · obtain ⟨-, rfl⟩ := exec_movff_next_iff.1 h
    exact inv_poke (inv_bump (inv_advance (inv_afterRead hs _) 4) _) _ _
  · cases h
    exact inv_warmReset hs
  · exact hs.of_frame (plain_result hplain h).frame (plain_result hplain h).pc_even

/-- Settles O60: every part of a step keeps the invariant: the boundary, waking up, interrupt entry, the instruction. -/
theorem stepKeepsInvariant : Obligations.StepKeepsInvariant := by
  intro s t hs h
  rcases step_next_cases h with hb | ⟨s1, hb, hrun⟩
  · exact inv_boundary hs (.inl hb)
  · have h1 : s1.wakeIfRequested.Inv := by
      rw [wakeIfRequested_eq]
      exact { inv_boundary hs (.inr hb) with }
    rcases hrun with ⟨-, rfl⟩ | ⟨-, ⟨lvl, -, hint⟩ | ⟨-, i, rest, -, hexec⟩⟩
    · exact h1
    · exact inv_takeInterrupt h1 hint
    · exact inv_exec h1 hexec

/-! ### Flags -/

theorem fileOpResult_status {f : Byte} {d a : Bool} {alu : Byte → Byte → Status → Byte × FlagWrite}
    {skips : Byte → Bool} {s : State}
    (h : d = true → target (ea f a s) s = some 0xFD8#12 → (alu (operand (ea f a s) s) s.w s.status).2.affects = true) :
    (fileOpResult f d a alu skips s).status = s.status.setFlags (alu (operand (ea f a s) s) s.w s.status).2 := by
  unfold fileOpResult
  dsimp only
  split <;> simp [stored_status h]

/-- Settles O48: the templates write the flags an instruction lists, and a data write reaches STATUS only as the target of
an instruction that lists none. -/
theorem flagsChangeOnlyAsListed : Obligations.FlagsChangeOnlyAsListed := by
  intro i s t h hret hretfie hreset hdata
  rcases instr_family i with ⟨f, d, a, alu, skips, hf⟩ | ⟨f, a, v, fw, hf⟩ | ⟨f, a, test, hf⟩ | ⟨f, a, rfl⟩ |
    ⟨fs, fd, rfl⟩ | rfl | hplain
  · obtain ⟨-, rfl⟩ := hf.next_iff.1 h
    have hlisted := hf.listed (operand (ea f a s) s) s.w s.status
    refine hlisted.kept (fileOpResult_status fun hd hT => hlisted.affects.2 (hdata ?_))
    rw [hf.written, if_pos hd, hT]
  · obtain ⟨-, rfl⟩ := hf.next_iff.1 h
    refine hf.listed.kept ?_
    rw [stored_status fun _ hT => hf.listed.affects.2 (hdata (by rw [hf.written, hT])), State.advance_status, bump_status]
  · obtain ⟨-, rfl⟩ := hf.next_iff.1 h
    exact .of_status (by simp)
  · obtain ⟨-, rfl⟩ := exec_mulwf_next_iff.1 h
    exact .of_status (by simp)
  · obtain ⟨-, rfl⟩ := exec_movff_next_iff.1 h
    have hT : target fd ((afterRead fs s).advance 4) ≠ some 0xFD8#12 := fun hT => hdata hT rfl
    exact .of_status (by simp [poke_status hT])
  · exact absurd rfl hreset
  · exact (plain_result hplain h).flags hret hretfie

/-! ### The program counter -/

theorem poke_pc_even {T : Target} {v : Byte} {s : State} (hs : s.pc.getLsbD 0 = false) :
    (poke T v s).pc.getLsbD 0 = false := by
  rcases poke_cases T v s with h | ⟨a, -, -, h⟩ | ⟨a, r, -, -, h⟩ <;> rw [h]
  · exact hs
  · exact hs
  · cases r with
    | pcl => exact evenPc_bit0 _
    | _ => simpa [pokeSfr] using hs

theorem stored_pc_even {d : Bool} {T : Target} {r : Byte} {fw : FlagWrite} {s : State} (hs : s.pc.getLsbD 0 = false) :
    (stored d T r fw s).pc.getLsbD 0 = false := by
  rw [stored, State.setFlags_pc]
  rcases written_cases d fw.affects T r s with h | ⟨-, h⟩ | ⟨-, h⟩ <;> rw [h]
  · exact hs
  · exact poke_pc_even hs
  · exact hs

theorem exec_pc_even {i : Instr} {s t : State} (h : exec i s = .next t) : t.pc.getLsbD 0 = false := by
  rcases instr_family i with ⟨f, d, a, alu, skips, hf⟩ | ⟨f, a, v, fw, hf⟩ | ⟨f, a, test, hf⟩ | ⟨f, a, rfl⟩ |
    ⟨fs, fd, rfl⟩ | rfl | hplain
  · obtain ⟨-, rfl⟩ := hf.next_iff.1 h
    unfold fileOpResult
    dsimp only
    split
    · exact evenPc_bit0 _
    · exact stored_pc_even (evenPc_bit0 _)
  · obtain ⟨-, rfl⟩ := hf.next_iff.1 h
    exact stored_pc_even (evenPc_bit0 _)
  · obtain ⟨-, rfl⟩ := hf.next_iff.1 h
    exact evenPc_bit0 _
  · obtain ⟨-, rfl⟩ := exec_mulwf_next_iff.1 h
    exact evenPc_bit0 _
  · obtain ⟨-, rfl⟩ := exec_movff_next_iff.1 h
    exact poke_pc_even (by rw [bump_pc]; exact evenPc_bit0 _)
  · cases h
    exact (by decide : Config.resetVector.getLsbD 0 = false)
  · exact (plain_result hplain h).pc_even

/-- An instruction that reads, computes and stores is followed by the next word, or, where it skips, by the one after it. -/
theorem fileOpResult_pc {f : Byte} {d a : Bool} {alu : Byte → Byte → Status → Byte × FlagWrite}
    {skips : Byte → Bool} {s : State} (h : d = true → target (ea f a s) s ≠ some 0xFF9#12) :
    (fileOpResult f d a alu skips s).pc =
      if skips (alu (operand (ea f a s) s) s.w s.status).1 then evenPc (s.pc + 4#21) else evenPc (s.pc + 2#21) := by
  unfold fileOpResult
  dsimp only
  split
  · rfl
  · simp [stored_pc h]

/-- Every skip instruction tests a file operand. -/
theorem cycleClass_ne_skip {i : Instr} (h : fileOperand i = none) : cycleClass i ≠ .skip := by
  cases i with
  | cpfseq | cpfsgt | cpfslt | decfsz | dcfsnz | incfsz | infsnz | tstfsz | btfsc | btfss => cases h
  | _ => exact nofun

/-- Settles O49: by family; the templates move the pc by one word or two, and only a write to PCL replaces it. -/
theorem pcAdvance : Obligations.PcAdvance := by
  refine fun i s t h => ⟨exec_pc_even h, fun htransfer hpcl => ?_⟩
  rcases instr_family i with ⟨f, d, a, alu, skips, hf⟩ | ⟨f, a, v, fw, hf⟩ | ⟨f, a, test, hf⟩ | ⟨f, a, rfl⟩ |
    ⟨fs, fd, rfl⟩ | rfl | hplain
  · obtain ⟨-, rfl⟩ := hf.next_iff.1 h
    have hpc := fileOpResult_pc (alu := alu) (skips := skips) fun hd hT => hpcl (by rw [hf.written, if_pos hd, hT])
    refine ⟨fun hskip => ?_, fun _ => ?_⟩
    · rw [hpc, hf.not_skip hskip, hf.bytes]; rfl
    · rw [hpc]; split
      · exact .inr rfl
      · exact .inl rfl
  · obtain ⟨-, rfl⟩ := hf.next_iff.1 h
    refine ⟨fun _ => ?_, fun hskip => absurd hskip hf.not_skip⟩
    rw [stored_pc fun _ hT => hpcl (by rw [hf.written, hT]), hf.bytes, State.advance_pc, bump_pc]
  · obtain ⟨-, rfl⟩ := hf.next_iff.1 h
    refine ⟨fun hskip => absurd hf.skip hskip, fun _ => ?_⟩
    rw [State.advance_pc, afterRead_pc]
    split
    · exact .inr rfl
    · exact .inl rfl
  · obtain ⟨-, rfl⟩ := exec_mulwf_next_iff.1 h
    exact ⟨fun _ => by simp; rfl, nofun⟩
  · obtain ⟨-, rfl⟩ := exec_movff_next_iff.1 h
    have hT : target fd ((afterRead fs s).advance 4) ≠ some 0xFF9#12 := hpcl
    exact ⟨fun _ => by rw [poke_pc hT, bump_pc, State.advance_pc, afterRead_pc]; rfl, nofun⟩
  · cases htransfer
  · exact ⟨fun _ => (plain_result hplain h).pc htransfer, fun hskip => absurd hskip (cycleClass_ne_skip hplain.1)⟩

/-! ### Program memory -/

theorem prog_boundary {s t : State} (h : boundary s = .reset t ∨ boundary s = .run t) : t.prog = s.prog := by
  rcases boundary_cases s with ⟨-, hb⟩ | ⟨m, later, -, ⟨k, -, hb⟩ | ⟨-, ⟨-, hb⟩ | ⟨-, -, hb⟩ | ⟨-, -, hb⟩⟩⟩ <;>
    rw [hb] at h <;> rcases h with h | h <;> cases h
  case inr.inl => cases k <;> rfl
  all_goals rfl

theorem prog_exec {i : Instr} {s t : State} (h : exec i s = .next t) : t.prog = s.prog := by
  by_cases hreset : i = .reset
  · subst hreset
    cases h
    rfl
  · by_cases hplain : Plain i
    · exact (plain_result hplain h).frame.prog
    · exact (exec_coreFrame hplain hreset h).prog

theorem wakeIfRequested_prog (s : State) : s.wakeIfRequested.prog = s.prog := by rw [wakeIfRequested_eq]

/-- Settles O50: neither the boundary, waking up, interrupt entry nor any instruction writes program memory. -/
theorem programMemoryImmutable : Obligations.ProgramMemoryImmutable := by
  intro s t h
  rcases step_next_cases h with hb | ⟨s1, hb, hrun⟩
  · exact prog_boundary (.inl hb)
  · have h1 : s1.wakeIfRequested.prog = s.prog := (wakeIfRequested_prog s1).trans (prog_boundary (.inr hb))
    rcases hrun with ⟨-, rfl⟩ | ⟨-, ⟨lvl, -, hint⟩ | ⟨-, i, rest, -, hexec⟩⟩
    · exact h1
    · obtain ⟨-, rfl⟩ := takeInterrupt_ok_iff.1 hint
      exact Eq.trans (by simp [pushed]) h1
    · exact (prog_exec hexec).trans h1

/-! ### The global interrupt enable -/

theorem fileOpResult_intcon {f : Byte} {d a : Bool} {alu : Byte → Byte → Status → Byte × FlagWrite}
    {skips : Byte → Bool} {s : State} (h : d = true → target (ea f a s) s ≠ some 0xFF2#12) :
    (fileOpResult f d a alu skips s).intcon = s.intcon := by
  unfold fileOpResult
  dsimp only
  split <;> simp [stored_intcon h]

/-- INTCON changes only by RETFIE, by RESET, or as the address an instruction writes. -/
theorem exec_intcon {i : Instr} {s t : State} (h : exec i s = .next t) (hretfie : ∀ b, i ≠ .retfie b)
    (hreset : i ≠ .reset) (hwritten : writtenAddress i s ≠ some 0xFF2#12) : t.intcon = s.intcon := by
  rcases instr_family i with ⟨f, d, a, alu, skips, hf⟩ | ⟨f, a, v, fw, hf⟩ | ⟨f, a, test, hf⟩ | ⟨f, a, rfl⟩ |
    ⟨fs, fd, rfl⟩ | rfl | hplain
  · obtain ⟨-, rfl⟩ := hf.next_iff.1 h
    exact fileOpResult_intcon fun hd hT => hwritten (by rw [hf.written, if_pos hd, hT])
  · obtain ⟨-, rfl⟩ := hf.next_iff.1 h
    rw [stored_intcon fun _ hT => hwritten (by rw [hf.written, hT]), State.advance_intcon, bump_intcon]
  · obtain ⟨-, rfl⟩ := hf.next_iff.1 h
    simp
  · obtain ⟨-, rfl⟩ := exec_mulwf_next_iff.1 h
    simp
  · obtain ⟨-, rfl⟩ := exec_movff_next_iff.1 h
    have hT : target fd ((afterRead fs s).advance 4) ≠ some 0xFF2#12 := hwritten
    simp [poke_intcon hT]
  · exact absurd rfl hreset
  · exact (plain_result hplain h).intcon hretfie

theorem exec_isrLevel {i : Instr} {s t : State} (h : exec i s = .next t) (hretfie : ∀ b, i ≠ .retfie b)
    (hreset : i ≠ .reset) : t.isrLevel = s.isrLevel := by
  by_cases hplain : Plain i
  · exact (plain_result hplain h).isrLevel hretfie
  · exact (exec_coreFrame hplain hreset h).isrLevel

theorem pendingInterrupt_of_gie {s : State} (h : s.intcon.gie = false) : pendingInterrupt s = none := by
  simp [pendingInterrupt, h]

theorem exec_gie {i : Instr} {s t : State} (h : exec i s = .next t) (hs : s.intcon.gie = false)
    (hretfie : ∀ b, i ≠ .retfie b) (hwritten : writtenAddress i s ≠ some 0xFF2#12) : t.intcon.gie = false := by
  by_cases hreset : i = .reset
  · subst hreset
    cases h
    rfl
  · rw [exec_intcon h hretfie hreset hwritten, hs]

/-- A reset at the boundary clears the enable bit and the levels in service. -/
theorem boundary_reset_intcon {s t : State} (h : boundary s = .reset t) : t.intcon.gie = false ∧ t.isrLevel = [] := by
  rcases boundary_cases s with ⟨-, hb⟩ | ⟨m, later, -, ⟨k, -, hb⟩ | ⟨-, ⟨-, hb⟩ | ⟨-, -, hb⟩ | ⟨-, -, hb⟩⟩⟩ <;>
    rw [hb] at h <;> cases h
  · cases k <;> exact ⟨rfl, rfl⟩
  · exact ⟨rfl, rfl⟩

/-- A move that goes on leaves the enable bit and the levels in service. -/
theorem boundary_run_intcon {s t : State} (h : boundary s = .run t) :
    t.intcon.gie = s.intcon.gie ∧ t.isrLevel = s.isrLevel := by
  rcases boundary_cases s with ⟨-, hb⟩ | ⟨m, later, -, ⟨k, -, hb⟩ | ⟨-, ⟨-, hb⟩ | ⟨-, -, hb⟩ | ⟨-, -, hb⟩⟩⟩ <;>
    rw [hb] at h <;> cases h <;> exact ⟨rfl, rfl⟩

/-- Settles O51: only RETFIE and a write to INTCON set the bit, and with it clear no interrupt is pending. -/
theorem globalEnableStaysClear : Obligations.GlobalEnableStaysClear := by
  refine ⟨fun s => pendingInterrupt_of_gie, fun i s t h hs => exec_gie h hs, fun s t h hs hinstr => ?_⟩
  have hrun : ∀ s1, boundary s = .run s1 →
      s1.wakeIfRequested.intcon.gie = false ∧ s1.wakeIfRequested.isrLevel = s.isrLevel := fun s1 hb => by
    rw [wakeIfRequested_intcon, wakeIfRequested_isrLevel, (boundary_run_intcon hb).1, (boundary_run_intcon hb).2]
    exact ⟨hs, rfl⟩
  have hnone : ∀ s1, boundary s = .run s1 → pendingInterrupt s1.wakeIfRequested = none :=
    fun s1 hb => pendingInterrupt_of_gie (hrun s1 hb).1
  rw [← and_assoc]
  refine ⟨?_, hnone⟩
  rcases step_next_cases h with hb | ⟨s1, hb, ⟨-, rfl⟩ | ⟨hawake, ⟨lvl, hint, -⟩ | ⟨-, i, rest, hdec, hexec⟩⟩⟩
  · exact ⟨(boundary_reset_intcon hb).1, .inr (boundary_reset_intcon hb).2⟩
  · exact ⟨(hrun s1 hb).1, .inl (hrun s1 hb).2⟩
  · rw [hnone s1 hb] at hint
    cases hint
  · obtain ⟨hretfie, hwritten⟩ := hinstr s1 i rest hb hawake hdec
    refine ⟨exec_gie hexec (hrun s1 hb).1 hretfie hwritten, ?_⟩
    by_cases hreset : i = .reset
    · subst hreset
      cases hexec
      exact .inr rfl
    · exact .inl ((exec_isrLevel hexec hretfie hreset).trans (hrun s1 hb).2)
end Sys2Proof
end

section
/-! Proofs of byte arithmetic and of the instructions whose result is one record update. -/

namespace Sys2Proof

open Machine

/-! ### Addition and subtraction over the integers (R32, R33) -/

theorem beq_zero_byte (r : Byte) : (r == 0#8) = decide (r.toNat = 0) := by
  rw [Bool.eq_iff_iff, beq_iff_eq, decide_eq_true_eq, ← BitVec.toNat_inj]
  rfl

theorem msb_byte (r : Byte) : r.msb = decide (r.toNat ≥ 128) := BitVec.msb_eq_decide r

theorem toInt_byte (a : Byte) : a.toInt = if 128 ≤ a.toNat then (a.toNat : Int) - 256 else a.toNat := by
  rw [BitVec.toInt_eq_toNat_cond]
  split <;> split <;> omega

theorem add8_toNat (a b : Byte) (c : Bool) : (add8 a b c).1.toNat = (a.toNat + b.toNat + c.toNat) % 256 := by
  simp [add8]

/-- The overflow flag of a sum, as the signs decide it and as the integers do (R32). -/
theorem add8_overflow (a b : Byte) (c : Bool) :
    (a.msb == b.msb && (add8 a b c).1.msb != a.msb) =
      decide (a.toInt + b.toInt + c.toNat < -128 ∨ 127 < a.toInt + b.toInt + c.toNat) := by
  have ha := a.isLt
  have hb := b.isLt
  have hc := Bool.toNat_le c
  rw [Bool.eq_iff_iff]
  simp only [msb_byte, add8_toNat, toInt_byte, Bool.and_eq_true, beq_iff_eq, bne_iff_ne, decide_eq_true_eq, ne_eq,
    decide_eq_decide]
  split <;> split <;> omega

theorem not_toNat_byte (b : Byte) : (~~~b).toNat = 255 - b.toNat := by
  rw [BitVec.toNat_not]

theorem add8_flags (a b : Byte) (c : Bool) :
    (add8 a b c).2 =
      { c := some (decide (a.toNat + b.toNat + c.toNat ≥ 256))
        dc := some (decide (a.toNat % 16 + b.toNat % 16 + c.toNat ≥ 16))
        z := some (decide ((add8 a b c).1.toNat = 0))
        ov := some (decide (a.toInt + b.toInt + c.toNat < -128 ∨ 127 < a.toInt + b.toInt + c.toNat))
        n := some (decide ((add8 a b c).1.toNat ≥ 128)) } := by
  rw [← add8_overflow, ← beq_zero_byte, ← msb_byte]
  rfl

/-- The overflow flag of a difference: `b`'s complement has the other sign. -/
theorem sub8_overflow (a b r : Byte) :
    (a.msb == (~~~b).msb && r.msb != a.msb) = decide (a.getLsbD 7 ≠ b.getLsbD 7 ∧ r.getLsbD 7 ≠ a.getLsbD 7) := by
  have hb : (~~~b).msb = !b.msb := by simp [BitVec.msb_not]
  have hmsb (x : Byte) : x.getLsbD 7 = x.msb := rfl
  rw [hb, hmsb, hmsb, hmsb]
  cases a.msb <;> cases b.msb <;> cases r.msb <;> rfl

/-- A subtraction is the addition of the complement, so its carries are the borrows that do not occur (R33). -/
theorem sub8_flags (a b : Byte) (c : Bool) :
    (sub8 a b c).2 =
      { c := some (decide (a.toNat ≥ b.toNat + c.toNat))
        dc := some (decide (a.toNat % 16 ≥ b.toNat % 16 + c.toNat))
        z := some (decide ((sub8 a b c).1.toNat = 0))
        ov := some (decide (a.getLsbD 7 ≠ b.getLsbD 7 ∧ (sub8 a b c).1.getLsbD 7 ≠ a.getLsbD 7))
        n := some ((sub8 a b c).1.getLsbD 7) } := by
  have hb := b.isLt
  have hc : (!c).toNat = 1 - c.toNat := by cases c <;> rfl
  have hc1 := Bool.toNat_le c
  have hcarry : decide (256 ≤ a.toNat + (~~~b).toNat + (!c).toNat) = decide (a.toNat ≥ b.toNat + c.toNat) := by
    rw [decide_eq_decide, not_toNat_byte, hc]
    omega
  have hdigit : decide (16 ≤ a.toNat % 16 + (~~~b).toNat % 16 + (!c).toNat) =
      decide (a.toNat % 16 ≥ b.toNat % 16 + c.toNat) := by
    rw [decide_eq_decide, not_toNat_byte, hc]
    omega
  rw [← hcarry, ← hdigit, ← sub8_overflow, ← beq_zero_byte]
  rfl

theorem sub8_toNat (a b : Byte) (c : Bool) :
    ((sub8 a b c).1.toNat : Int) = ((a.toNat : Int) - b.toNat - c.toNat) % 256 := by
  have hb := b.isLt
  have hc : (!c).toNat = 1 - c.toNat := by cases c <;> rfl
  have hc1 := Bool.toNat_le c
  rw [sub8_eq, add8_toNat, not_toNat_byte, hc]
  omega

/-- Settles O35: the results modulo 256, and each flag by the comparison it stands for. -/
theorem arithmeticFlags : Obligations.ArithmeticFlags :=
  fun a b c => ⟨⟨add8_toNat a b c, add8_flags a b c⟩, sub8_toNat a b c, sub8_flags a b c⟩

/-! ### Literal instructions -/

/-- The flags of a logic result by its value and its bit 7 (R34). -/
theorem flagsZN_eq (r : Byte) : flagsZN r = { z := some (decide (r = 0#8)), n := some (r.getLsbD 7) } := by
  have hz : (r == 0#8) = decide (r = 0#8) := rfl
  rw [flagsZN, hz]
  rfl

/-- The state after a literal logic instruction. -/
theorem literalOp_logic (r : Byte → Byte) (s : State) :
    literalOp (fun w => logic (r w)) s =
      { s with w := r s.w, status := { s.status with z := decide (r s.w = 0#8), n := (r s.w).getLsbD 7 },
               pc := evenPc (s.pc + 2#21) } := by
  simp only [literalOp, logic, flagsZN_eq]
  rfl

/-- Settles O12: three instances of one literal operation. -/
theorem literalLogic : Obligations.LiteralLogic := fun k s =>
  ⟨⟨congrArg Host.Outcome.next (literalOp_logic (· &&& k) s), rfl, rfl⟩,
    ⟨congrArg Host.Outcome.next (literalOp_logic (· ||| k) s), rfl, rfl⟩,
    congrArg Host.Outcome.next (literalOp_logic (· ^^^ k) s), rfl, rfl⟩

/-- The two bytes of a product hold it whole: a product of bytes is below 65536. -/
theorem setProd_toNat (s : State) (a b : Byte) :
    (s.setProd (mul8 a b)).prodh.toNat * 256 + (s.setProd (mul8 a b)).prodl.toNat = a.toNat * b.toNat := by
  have hlt : a.toNat * b.toNat < 65536 := Nat.mul_lt_mul'' a.isLt b.isLt
  have hmul : (mul8 a b).toNat = a.toNat * b.toNat := by rw [mul8, BitVec.toNat_ofNat, Nat.mod_eq_of_lt hlt]
  have hp := (mul8 a b).isLt
  simp only [State.setProd_prodh, State.setProd_prodl, BitVec.extractLsb'_toNat, Nat.shiftRight_eq_div_pow]
  omega

/-- Settles O13: ADDLW and SUBLW by computation, MULLW by the bytes of the product. -/
theorem literalArithmetic : Obligations.LiteralArithmetic := fun k s =>
  ⟨rfl, rfl, (s.setProd (mul8 s.w k)).advance 2, rfl, setProd_toNat s s.w k, rfl⟩

/-! ### Decimal adjustment (R302) -/

/-- The decimal value of a packed-BCD byte. -/
def decimalValue (x : Byte) : Nat := 10 * (x.toNat / 16) + x.toNat % 16

/-- A byte of two decimal digits. -/
def PackedBcd (x : Byte) : Prop := x.toNat / 16 ≤ 9 ∧ x.toNat % 16 ≤ 9

theorem daw8_keeps_carry (w : Byte) (dc : Bool) : (daw8 w true dc).2 = true := by simp [daw8]

/-- The sum of two packed-BCD bytes with a carry is `16 * h + l`, `h` and `l` the sums of its digits; on each such number the
adjustment is the decimal sum. -/
theorem daw8_of_digit_sums : ∀ l < 20, ∀ h < 19,
    let out := daw8 (BitVec.ofNat 8 (16 * h + l)) (decide (256 ≤ 16 * h + l)) (decide (16 ≤ l))
    PackedBcd out.1 ∧ decimalValue out.1 + 100 * out.2.toNat = 10 * h + l := by
  unfold PackedBcd
  decide

theorem daw8_after_add8 {a b : Byte} (cin : Bool) (ha : PackedBcd a) (hb : PackedBcd b) :
    let sum := add8 a b cin
    let out := daw8 sum.1 (sum.2.c == some true) (sum.2.dc == some true)
    PackedBcd out.1 ∧ decimalValue out.1 + 100 * out.2.toNat = decimalValue a + decimalValue b + cin.toNat := by
  obtain ⟨ha1, ha0⟩ := ha
  obtain ⟨hb1, hb0⟩ := hb
  have hcin := Bool.toNat_le cin
  have key := daw8_of_digit_sums (a.toNat % 16 + b.toNat % 16 + cin.toNat) (by omega) (a.toNat / 16 + b.toNat / 16) (by omega)
  have hsum : 16 * (a.toNat / 16 + b.toNat / 16) + (a.toNat % 16 + b.toNat % 16 + cin.toNat) =
      a.toNat + b.toNat + cin.toNat := by omega
  have hdec : decimalValue a + decimalValue b + cin.toNat =
      10 * (a.toNat / 16 + b.toNat / 16) + (a.toNat % 16 + b.toNat % 16 + cin.toNat) := by
    unfold decimalValue
    omega
  have hsome (x : Bool) : (some x == some true) = x := by cases x <;> rfl
  rw [hsum] at key
  rw [hdec]
  simpa only [add8, hsome] using key

/-- Settles O14: DAW is the literal operation of the default algorithm, which is right on packed-BCD sums. -/
theorem decimalAdjust : Obligations.DecimalAdjust :=
  ⟨fun _ => rfl, daw8_keeps_carry, fun _ _ cin ha hb => daw8_after_add8 cin ha hb⟩

/-! ### Pointer load, watchdog, sleep, reset -/

/-- Settles O24: the pointer selects the field written; the fourth value stops. -/
theorem loadPointer : Obligations.LoadPointer := fun _ _ => ⟨rfl, rfl, rfl, rfl⟩

/-- Settles O33: both are one record update and an advance of the pc by 2. -/
theorem clearWatchdogAndSleep : Obligations.ClearWatchdogAndSleep := fun _ => ⟨rfl, rfl⟩

/-- INTCON after a warm reset shows only RBIF. -/
theorem intcon_reset_bits (rbif : Bool) : ({ Intcon.reset with rbif := rbif } : Intcon).toByte &&& 0xFE#8 = 0#8 := by
  cases rbif <;> decide

/-- Settles O34: the cells of `warmReset` by R70's column; those it marks "u" are not in the update. -/
theorem softwareReset : Obligations.SoftwareReset := fun s =>
  ⟨s.warmReset, rfl,
    ⟨rfl, rfl, rfl, rfl, rfl, rfl, rfl, rfl, rfl, intcon_reset_bits _, rfl, rfl, rfl, rfl, rfl, rfl, rfl, rfl, rfl, rfl, rfl⟩,
    rfl, rfl, rfl, rfl, rfl, rfl, rfl, rfl, rfl, rfl, rfl, rfl⟩

/-- Settles O58: the fields of the reset state, read off. -/
theorem resetValues : Obligations.ResetValues :=
  ⟨rfl, rfl, rfl, rfl, rfl, rfl, rfl, rfl, rfl, intcon_reset_bits false, rfl, rfl, rfl, rfl, rfl, rfl, rfl, rfl, rfl, rfl, rfl⟩

end Sys2Proof
end

section
/-! Proofs of the table and control instructions. -/

namespace Sys2Proof

open Machine

/-! ### Table instructions -/

theorem tblptrInc_eq (s : State) : s.tblptrInc = { s with tblptr := BitVec.ofNat 22 (s.tblptr.toNat + 1) } := by
  have h : s.tblptr + 1#22 = BitVec.ofNat 22 (s.tblptr.toNat + 1) := by
    apply BitVec.eq_of_toNat_eq; simp [BitVec.toNat_add]
  rw [State.tblptrInc, h]

theorem tblptrDec_eq (s : State) :
    s.tblptrDec = { s with tblptr := BitVec.ofNat 22 (s.tblptr.toNat + (2 ^ 22 - 1)) } := by
  have h : s.tblptr - 1#22 = BitVec.ofNat 22 (s.tblptr.toNat + (2 ^ 22 - 1)) := by
    apply BitVec.eq_of_toNat_eq; simp [BitVec.toNat_sub, Nat.add_comm]
  rw [State.tblptrDec, h]

theorem tableReadThen_of_inside {after : State → State} {s : State} (h : s.tblptr.toNat < Config.progMemBytes) :
    tableReadThen after s = .next ((after { s with tablat := s.progByte s.tblptr.toNat }).advance 2) :=
  tableReadThen_next_iff.2 ⟨h, rfl⟩

theorem tableReadThen_fault_iff {after : State → State} {s : State} {e : Fault} :
    tableReadThen after s = .fault e ↔ Config.progMemBytes ≤ s.tblptr.toNat ∧ e = .tableReadOutside := by
  unfold tableReadThen tableRead
  split <;> rename_i h
  · split at h
    · cases h; simp [*, eq_comm]
    · cases h
  · split at h
    · cases h
    · simp [*]

/-- Settles O25: one read with what the suffix does to the pointer before or after it. -/
theorem tableReads : Obligations.TableReads := by
  intro s
  have hpre : exec .tblrdPreInc s = tableReadThen id s.tblptrInc := rfl
  have hpost : exec .tblrdPostInc s = tableReadThen State.tblptrInc s := rfl
  have hdec : exec .tblrdPostDec s = tableReadThen State.tblptrDec s := rfl
  have hstay : exec .tblrd s = tableReadThen id s := rfl
  rw [hpre, hpost, hdec, hstay]
  refine ⟨fun h => ⟨tableReadThen_of_inside h, ?_, ?_⟩, fun h => ?_,
    fun h => ⟨tableReadThen_fault_iff.2 ⟨h, rfl⟩, tableReadThen_fault_iff.2 ⟨h, rfl⟩, tableReadThen_fault_iff.2 ⟨h, rfl⟩⟩,
    fun h => ?_⟩
  · rw [tableReadThen_of_inside h, tblptrInc_eq]; rfl
  · rw [tableReadThen_of_inside h, tblptrDec_eq]; rfl
  · rw [tblptrInc_eq, tableReadThen_of_inside h]; rfl
  · rw [tblptrInc_eq]; exact tableReadThen_fault_iff.2 ⟨h, rfl⟩

/-- The holding latches after a table write: the one the low three bits of TBLPTR select holds TABLAT. -/
theorem tableWrite_hold (s : State) (n : Fin 8) :
    s.tableWrite.hold[n] = if n.val = s.tblptr.toNat % 8 then s.tablat else s.hold[n] := by
  simp [State.tableWrite, Vector.getElem_setIfInBounds, eq_comm]

/-- Settles O26: one write of a latch, and the pointer steps of the reads. -/
theorem tableWrites : Obligations.TableWrites := by
  intro s
  refine ⟨⟨_, rfl, rfl, tableWrite_hold s⟩, ⟨_, rfl, ?_, tableWrite_hold s⟩, ⟨_, rfl, ?_, tableWrite_hold s⟩,
    ⟨_, rfl, ?_, ?_⟩⟩
  · rw [tblptrInc_eq]; rfl
  · rw [tblptrDec_eq]; rfl
  · rw [tblptrInc_eq]; rfl
  · intro n
    rw [tblptrInc_eq]; exact tableWrite_hold _ n

/-! ### Branches and jumps -/

/-- The state a conditional branch goes to, its target as integer arithmetic (D11). -/
theorem branchIf_eq (taken : Bool) (n : BitVec 8) (s : State) :
    branchIf taken n s =
      .next { s with pc := evenPc (BitVec.ofInt 21 (s.pc.toNat + 2 + if taken then 2 * n.toInt else 0)) } := by
  unfold branchIf
  cases taken with
  | true => rw [if_pos rfl, relTarget_eq]; rfl
  | false =>
    have hnext : s.pc + 2#21 = BitVec.ofInt 21 (s.pc.toNat + 2 + 0) := by
      rw [BitVec.ofInt_add, BitVec.ofInt_add]
      simp
    simp only [Bool.false_eq_true, if_false, ← hnext]
    rfl

/-- Settles O27: eight instances of one template, each on its flag. -/
theorem conditionalBranches : Obligations.ConditionalBranches := fun n _ =>
  ⟨branchIf_eq _ n _, branchIf_eq _ n _, branchIf_eq _ n _, branchIf_eq _ n _, branchIf_eq _ n _, branchIf_eq _ n _,
    branchIf_eq _ n _, branchIf_eq _ n _⟩

theorem jump_relTarget {k : Nat} (s : State) (n : BitVec k) :
    s.jump (relTarget s.pc n) = { s with pc := evenPc (BitVec.ofInt 21 (s.pc.toNat + 2 + 2 * n.toInt)) } := by
  rw [relTarget_eq]; rfl

theorem jump_absTarget (s : State) (k : BitVec 20) :
    s.jump (absTarget k) = { s with pc := BitVec.ofNat 21 (2 * k.toNat) } := by
  rw [State.jump, evenPc_absTarget, absTarget_eq]

/-- Settles O28: a relative and an absolute jump. -/
theorem jumps : Obligations.Jumps := fun n k s =>
  ⟨congrArg Host.Outcome.next (jump_relTarget s n), congrArg Host.Outcome.next (jump_absTarget s k)⟩

/-! ### The return stack -/

/-- What a push leaves on the stack, and what of it stays. -/
theorem pushed_stack {v : BitVec 21} {s : State} (h : s.sp.toNat < 30) :
    (pushed v s).sp.toNat = s.sp.toNat + 1 ∧ (pushed v s).stackEntry (pushed v s).sp = v ∧
      ∀ j, j ≠ 0#5 → j ≠ (pushed v s).sp → (pushed v s).stackEntry j = s.stackEntry j := by
  rw [pushed_sp]
  refine ⟨?_, pushed_top (by omega), fun j hj hne => pushed_other hj hne⟩
  rw [BitVec.toNat_add, BitVec.toNat_ofNat]
  omega

/-- An instruction that pushes a return address and changes only the pc and the fast register stack besides. -/
theorem pushThen_calls {i : Instr} {ret dest : PAddr} {fast : FastStack} {k : State → State} {s : State}
    (hexec : exec i s = pushThen ret k s)
    (hk : k (pushed ret s) =
      { s with pc := dest, fast := fast, sp := (pushed ret s).sp, stack := (pushed ret s).stack }) :
    (s.sp.toNat < 30 →
        ∃ t, exec i s = .next t ∧ t.sp.toNat = s.sp.toNat + 1 ∧ t.stackEntry t.sp = ret ∧
          (∀ j, j ≠ 0#5 → j ≠ t.sp → t.stackEntry j = s.stackEntry j) ∧
          t = { s with pc := dest, fast := fast, sp := t.sp, stack := t.stack }) ∧
      (30 ≤ s.sp.toNat → exec i s = .fault .stackOverflow) := by
  rw [hexec]
  refine ⟨fun h => ?_, fun h => pushThen_fault_iff.2 ⟨by omega, rfl⟩⟩
  obtain ⟨hsp, htop, hother⟩ := pushed_stack (v := ret) h
  refine ⟨k (pushed ret s), pushThen_next_iff.2 ⟨by omega, rfl⟩, ?_⟩
  rw [hk]
  exact ⟨hsp, htop, hother, rfl⟩

/-- Settles O29: each pushes its return address, then jumps or goes on. -/
theorem callsAndPush : Obligations.CallsAndPush := by
  intro k n fast s
  refine ⟨pushThen_calls (exec_call k fast s) ?_, pushThen_calls (exec_rcall n s) ?_, pushThen_calls (exec_push s) ?_⟩
  · rw [jump_absTarget, pushed_eq]
    cases fast <;> rfl
  · rw [pushed_eq, relTarget_eq]
    rfl
  · rw [pushed_eq]
    rfl

/-- Settles O30: each pops the return address, then loads it or goes on. -/
theorem returnsAndPop : Obligations.ReturnsAndPop := by
  intro k fast s
  rw [exec_ret, exec_retlw, exec_pop]
  refine ⟨fun h => ⟨popThen_next_iff.2 ⟨h, ?_⟩, popThen_next_iff.2 ⟨h, rfl⟩, if_neg h⟩,
    fun h => ⟨popThen_fault_iff.2 ⟨h, rfl⟩, popThen_fault_iff.2 ⟨h, rfl⟩, if_pos h⟩⟩
  cases fast <;> rfl

theorem exec_retfie_fault_iff {fast : Bool} {s : State} {e : Fault} :
    exec (.retfie fast) s = .fault e ↔ s.sp = 0#5 ∧ e = .stackUnderflow := by
  rw [exec_retfie, outcome_fault_iff, ← pop_error_iff, Machine.returnFromInterrupt]
  cases pop s <;> simp

/-- Settles O31: by the level on top of the levels in service. -/
theorem returnFromInterrupt : Obligations.ReturnFromInterrupt := by
  intro fast s
  refine ⟨fun h => ?_, fun h => exec_retfie_fault_iff.2 ⟨h, rfl⟩⟩
  rw [exec_retfie]
  refine outcome_next_iff.2 (returnFromInterrupt_ok_iff.2 ⟨h, ?_⟩)
  match s.isrLevel with
  | [] | .low :: _ | .high :: _ =>
    cases fast <;> simp [State.leaveIsr, State.restoreFastIf, State.restoreFast, Intcon.setEnable, State.jump]
end Sys2Proof
end

section
/-! Effective addresses and indirect windows. -/

namespace Sys2Proof

open Machine

/-! ### Effective addresses (R92 to R94) -/

/-- Settles O36: a bank and a field joined. -/
theorem effectiveAddress : Obligations.EffectiveAddress := by
  intro f s
  refine ⟨toNat_append_eq s.bsr f, fun h => ?_, fun h => ?_, fun h hbank => ?_⟩
  · rw [ea, if_neg nofun, if_pos (show f.toNat < Config.accessSplit from h)]
    exact (toNat_append_eq 0#4 f).trans (Nat.zero_add _)
  · rw [ea, if_neg nofun, if_neg (by unfold Config.accessSplit; omega)]; exact toNat_append_eq 0xF#4 f
  · rw [ea, ea, if_pos rfl, if_neg nofun, if_neg (by unfold Config.accessSplit; omega), hbank]

/-! ### Windows (R95 to R97) -/

theorem succ12_eq (p : BitVec 12) : p + 1#12 = BitVec.ofNat 12 (p.toNat + 1) := by
  apply BitVec.eq_of_toNat_eq; simp [BitVec.toNat_add]

theorem pred12_eq (p : BitVec 12) : p - 1#12 = BitVec.ofNat 12 (p.toNat + 4095) := by
  apply BitVec.eq_of_toNat_eq; simp [BitVec.toNat_sub, Nat.add_comm]

theorem addSigned12_eq (p : BitVec 12) (w : Byte) : p + w.signExtend 12 = BitVec.ofInt 12 (p.toNat + w.toInt) := by
  rw [BitVec.ofInt_add, BitVec.signExtend]
  simp

/-- The addresses of the fifteen windows (R50). -/
def IsWindow (x : DAddr) : Prop :=
  (0xFEB ≤ x.toNat ∧ x.toNat ≤ 0xFEF) ∨ (0xFE3 ≤ x.toNat ∧ x.toNat ≤ 0xFE7) ∨ (0xFDB ≤ x.toNat ∧ x.toNat ≤ 0xFDF)

theorem windowAt_eq_none_iff {x : DAddr} : windowAt x = none ↔ ¬ IsWindow x := by
  rw [IsWindow, ← windowAt_isSome_iff]
  cases windowAt x <;> simp

/-- The target of a window is where its pointer leads, unless that is a window. -/
theorem target_of_window {A T : DAddr} {k : WindowKind} {n : FsrIndex} {s : State} (h : windowAt A = some (k, n))
    (hT : pointerTarget k n s = T) : (IsWindow T → target A s = none) ∧ (¬ IsWindow T → target A s = some T) := by
  simp only [target, h, hT]
  cases hw : windowAt T with
  | none => exact ⟨fun hT => absurd hT (windowAt_eq_none_iff.1 hw), fun _ => rfl⟩
  | some p => exact ⟨fun _ => rfl, fun hT => by rw [windowAt_eq_none_iff.2 hT] at hw; cases hw⟩

theorem target_of_not_window {A : DAddr} (h : windowAt A = none) (s : State) : target A s = some A := by
  simp [target, h]

theorem bump_of_not_window {A : DAddr} (h : windowAt A = none) (s : State) : bump A s = s := by simp [bump, h]

theorem resolve_of_not_resolvable {A : DAddr} {s : State} (h : ¬ Resolvable A s) :
    resolve A s = .error .indirectOnOwnFSR := by
  unfold resolve
  rw [if_pos (Bool.not_eq_false _ ▸ fun hf => h (ownFsrHit_eq_false.1 hf))]

theorem resolve_own_pointer {A : DAddr} {k : WindowKind} {n : FsrIndex} (h : windowAt A = some (k, n))
    (hk : k.steps = true) {s : State}
    (hT : pointerTarget k n s = (fsrBytes n).1 ∨ pointerTarget k n s = (fsrBytes n).2) :
    resolve A s = .error .indirectOnOwnFSR :=
  resolve_of_not_resolvable fun hres => hT.elim (hres k n h hk).1 (hres k n h hk).2

/-- The window of each kind of a pointer, from the lowest, PLUSW (R50). -/
def windowBase : FsrIndex → DAddr
  | .f0 => 0xFEB#12
  | .f1 => 0xFE3#12
  | .f2 => 0xFDB#12

theorem windowAt_base (n : FsrIndex) :
    windowAt (windowBase n + 4#12) = some (.indf, n) ∧ windowAt (windowBase n + 3#12) = some (.postinc, n) ∧
      windowAt (windowBase n + 2#12) = some (.postdec, n) ∧ windowAt (windowBase n + 1#12) = some (.preinc, n) ∧
      windowAt (windowBase n) = some (.plusw, n) := by
  cases n <;> decide

/-- Settles O37: each window by its row of the map. -/
theorem indirectWindows : Obligations.IndirectWindows := by
  intro n s
  obtain ⟨hindf, hpostinc, hpostdec, hpreinc, hplusw⟩ := windowAt_base n
  have hup := succ12_eq (s.fsr n)
  have hdown := pred12_eq (s.fsr n)
  have hstops {A T : DAddr} {k : WindowKind} (h : windowAt A = some (k, n)) (hk : k.steps = true)
      (hT : pointerTarget k n s = T) : T = (fsrBytes n).1 ∨ T = (fsrBytes n).2 → resolve A s = .error .indirectOnOwnFSR := by
    subst hT
    exact resolve_own_pointer h hk
  have hstep {A : DAddr} {k : WindowKind} {new : BitVec 12} (h : windowAt A = some (k, n))
      (hnew : bump A s = s.setFsr n new) (T : DAddr) (hT : pointerTarget k n s = T) :
      bump A s = s.setFsr n new ∧ (IsWindow T → target A s = none) ∧ (¬ IsWindow T → target A s = some T) :=
    ⟨hnew, target_of_window h hT⟩
  refine ⟨hstep hindf ?_ _ rfl, hstep hpostinc ?_ _ rfl, hstep hpostdec ?_ _ rfl, hstep hpreinc ?_ _ hup,
    hstep hplusw ?_ _ (addSigned12_eq _ _), hstops hpostinc rfl rfl, hstops hpostdec rfl rfl, hstops hpreinc rfl hup,
    fun A hA => ?_⟩
  · simp [bump, hindf]
  · simp [bump, hpostinc, hup]
  · simp [bump, hpostdec, hdown]
  · simp [bump, hpreinc, hup]
  · simp [bump, hplusw]
  · have hnone := windowAt_eq_none_iff.2 hA
    exact ⟨target_of_not_window hnone s, bump_of_not_window hnone s⟩
end Sys2Proof

end

section
/-! The data bus: what a read shows and what a write does. -/

namespace Sys2Proof

open Machine

/-! ### Bytes of a register (R62) -/

/-- Loading the pc clears bit 0, as a number (R27). -/
theorem evenPc_toNat (v : PAddr) : (evenPc v).toNat = v.toNat / 2 * 2 := by
  rw [evenPc, BitVec.toNat_and]
  exact land_highMask (k := 1) v.isLt (by decide)

theorem peek_sfr {a : DAddr} (r : Sfr) (h : sfrAt a = some r) (s : State) : peek (some a) s = peekSfr r s := by
  simp [peek, cellAt_of_sfrAt h]

theorem poke_sfr {a : DAddr} (r : Sfr) (h : sfrAt a = some r) (v : Byte) (s : State) :
    poke (some a) v s = pokeSfr r a v s := by
  simp [poke, cellAt_of_sfrAt h]

/-- Above RAM an address without a row is no cell (R61). -/
theorem cellAt_unimplemented {a : DAddr} (ha : Config.gprTop < a.toNat) (h : sfrAt a = none) :
    cellAt a = .unimplemented := by
  simp [cellAt, h, Nat.not_le.2 ha]

theorem toNat_zero_append {k w : Nat} (x : BitVec w) : (0#k ++ x).toNat = x.toNat := by
  rw [toNat_append_eq]; simp

theorem Status.toNat_toByte (st : Status) :
    st.toByte.toNat = 16 * st.n.toNat + 8 * st.ov.toNat + 4 * st.z.toNat + 2 * st.dc.toNat + st.c.toNat := by
  obtain ⟨n, ov, z, dc, c⟩ := st
  cases n <;> cases ov <;> cases z <;> cases dc <;> cases c <;> rfl

theorem extractLsb'_eq_ofNat {w : Nat} (x : BitVec w) (k n : Nat) :
    x.extractLsb' k n = BitVec.ofNat n (x.toNat / 2 ^ k) := by
  rw [BitVec.extractLsb', Nat.shiftRight_eq_div_pow]

theorem toNat_extractLsb'_eq {w : Nat} (x : BitVec w) (k n : Nat) :
    (x.extractLsb' k n).toNat = x.toNat / 2 ^ k % 2 ^ n := by
  rw [BitVec.extractLsb'_toNat, Nat.shiftRight_eq_div_pow]

/-- The two bytes of a pointer (R23). -/
theorem fsr_bytes (n : FsrIndex) (s : State) :
    (peekSfr (.fsrh n) s).toNat * 256 + (peekSfr (.fsrl n) s).toNat = (s.fsr n).toNat := by
  have := (s.fsr n).isLt
  simp only [peekSfr, toNat_zero_append, toNat_extractLsb'_eq]
  omega

/-- The three bytes of the top entry (R42). -/
theorem tos_bytes (s : State) :
    (peekSfr .tosu s).toNat * 65536 + (peekSfr .tosh s).toNat * 256 + (peekSfr .tosl s).toNat =
      (s.stackEntry s.sp).toNat := by
  have := (s.stackEntry s.sp).isLt
  simp only [peekSfr, toNat_zero_append, toNat_extractLsb'_eq]
  omega

/-- The three bytes of the table pointer (R29). -/
theorem tblptr_bytes (s : State) :
    (peekSfr .tblptru s).toNat * 65536 + (peekSfr .tblptrh s).toNat * 256 + (peekSfr .tblptrl s).toNat =
      s.tblptr.toNat := by
  have := s.tblptr.isLt
  simp only [peekSfr, toNat_zero_append, toNat_extractLsb'_eq]
  omega

/-- PCL shows the low byte of pc + 2 (R26). -/
theorem pcl_byte (s : State) : (peekSfr .pcl s).toNat = (s.pc.toNat + 2) % 256 := by
  simp only [peekSfr, toNat_extractLsb'_eq, BitVec.toNat_add, BitVec.toNat_ofNat]
  omega

theorem stkptr_byte (s : State) :
    (peekSfr .stkptr s).toNat = 128 * s.stkful.toNat + 64 * s.stkunf.toNat + s.sp.toNat := by
  simp only [peekSfr, toNat_append_eq, BitVec.toNat_ofBool, BitVec.toNat_ofNat]
  omega

theorem readEffect_of_other {T : Target} {s : State} (hpcl : T ≠ some 0xFF9#12)
    (hperiph : ∀ a p, T = some a → cellAt a ≠ .sfr (.periph p)) : readEffect T s = s := by
  rcases readEffect_cases T s with h | ⟨h, -⟩ | ⟨a, p, hT, hc, -⟩
  · exact h
  · exact absurd h hpcl
  · exact absurd hc (hperiph a p hT)

theorem readEffect_pcl (s : State) :
    readEffect (some 0xFF9#12) s =
      { s with pclath := BitVec.ofNat 8 ((s.pc + 2#21).toNat / 256),
               pclatu := BitVec.ofNat 5 ((s.pc + 2#21).toNat / 65536) } := by
  have hcell : cellAt 0xFF9#12 = .sfr .pcl := cellAt_of_sfrAt rfl
  simp only [readEffect, hcell, extractLsb'_eq_ofNat]
  rfl

theorem readEffect_periph {a : DAddr} {p : Periph} (h : cellAt a = .sfr (.periph p)) (s : State) :
    readEffect (some a) s = { s with draws := s.draws + 1 } := by
  simp [readEffect, h]

/-- Settles O38: register by register through the map, and the two effects of a read. -/
theorem dataReadMap : Obligations.DataReadMap := by
  intro s
  dsimp only
  refine ⟨⟨peek_sfr .wreg rfl s, ?_, ?_⟩, ⟨?_, ?_, ?_⟩, ⟨?_, peek_sfr .pclath rfl s, ?_⟩, ⟨?_, ?_⟩,
    ⟨peek_sfr .prodl rfl s, peek_sfr .prodh rfl s, peek_sfr .tablat rfl s, ?_⟩,
    ⟨peek_sfr .intcon rfl s, peek_sfr .intcon2 rfl s, peek_sfr .intcon3 rfl s, peek_sfr .rcon rfl s, peek_sfr .pir1 rfl s,
      peek_sfr .pie1 rfl s, peek_sfr .ipr1 rfl s, peek_sfr .pir2 rfl s, peek_sfr .pie2 rfl s, peek_sfr .ipr2 rfl s⟩,
    fun a ha => ?_, fun a ha hnone => ?_, readEffect_pcl s, fun a p h => readEffect_periph h s,
    fun T hpcl hperiph => readEffect_of_other hpcl hperiph⟩
  · rw [peek_sfr .status rfl]; exact Status.toNat_toByte _
  · rw [peek_sfr .bsr rfl]; exact toNat_zero_append _
  · rw [peek_sfr (.fsrh .f0) rfl, peek_sfr (.fsrl .f0) rfl]; exact fsr_bytes .f0 s
  · rw [peek_sfr (.fsrh .f1) rfl, peek_sfr (.fsrl .f1) rfl]; exact fsr_bytes .f1 s
  · rw [peek_sfr (.fsrh .f2) rfl, peek_sfr (.fsrl .f2) rfl]; exact fsr_bytes .f2 s
  · rw [peek_sfr .pcl rfl]; exact pcl_byte s
  · rw [peek_sfr .pclatu rfl]; exact toNat_zero_append _
  · rw [peek_sfr .stkptr rfl]; exact stkptr_byte s
  · rw [peek_sfr .tosu rfl, peek_sfr .tosh rfl, peek_sfr .tosl rfl]; exact tos_bytes s
  · rw [peek_sfr .tblptru rfl, peek_sfr .tblptrh rfl, peek_sfr .tblptrl rfl]; exact tblptr_bytes s
  · simp [peek, cellAt_gpr.2 ha]
  · simp [peek, cellAt_unimplemented ha hnone]

/-! ### Data writes (R91) -/

/-- A byte put in the low place of a register. -/
theorem join_low {k : Nat} (x : BitVec (k + 8)) (v : Byte) :
    x.extractLsb' 8 k ++ v = BitVec.ofNat (k + 8) (x.toNat / 256 * 256 + v.toNat) := by
  apply BitVec.eq_of_toNat_eq
  have hv := v.isLt
  have hx := x.isLt
  have hpow : 2 ^ (k + 8) = 2 ^ k * 256 := Nat.pow_add 2 k 8
  have hq : x.toNat / 2 ^ 8 < 2 ^ k := by omega
  have hlt : x.toNat / 256 * 256 + v.toNat < 2 ^ (k + 8) := by omega
  rw [toNat_append_eq, toNat_extractLsb'_eq, Nat.mod_eq_of_lt hq, BitVec.toNat_ofNat, Nat.mod_eq_of_lt hlt]
  omega

/-- A byte put in the middle of a register of three. -/
theorem join_middle {k : Nat} (x : BitVec (k + 8 + 8)) (v : Byte) :
    x.extractLsb' 16 k ++ v ++ x.extractLsb' 0 8 =
      BitVec.ofNat (k + 8 + 8) (x.toNat / 65536 * 65536 + v.toNat * 256 + x.toNat % 256) := by
  apply BitVec.eq_of_toNat_eq
  have hv := v.isLt
  have hx := x.isLt
  have hpow : 2 ^ (k + 8 + 8) = 2 ^ k * 65536 := Nat.pow_add 2 k 16
  have hq : x.toNat / 2 ^ 16 < 2 ^ k := by omega
  have hlt : x.toNat / 65536 * 65536 + v.toNat * 256 + x.toNat % 256 < 2 ^ (k + 8 + 8) := by omega
  rw [toNat_append_eq, toNat_append_eq, toNat_extractLsb'_eq, toNat_extractLsb'_eq, Nat.mod_eq_of_lt hq,
    BitVec.toNat_ofNat, Nat.mod_eq_of_lt hlt]
  omega

/-- A byte put in the high place of a register, its bits that have no place there dropped. -/
theorem join_high {k m : Nat} (x : BitVec (k + m)) (v : Byte) :
    v.extractLsb' 0 k ++ x.extractLsb' 0 m = BitVec.ofNat (k + m) (v.toNat * 2 ^ m + x.toNat % 2 ^ m) := by
  apply BitVec.eq_of_toNat_eq
  have hr : x.toNat % 2 ^ m < 2 ^ m := Nat.mod_lt _ (Nat.two_pow_pos m)
  rw [toNat_append_eq, toNat_extractLsb'_eq, toNat_extractLsb'_eq, BitVec.toNat_ofNat, Nat.pow_zero, Nat.div_one, Nat.div_one,
    Nat.pow_add, Nat.mul_comm (2 ^ k), Nat.mod_mul, Nat.mul_comm v.toNat, Nat.mul_add_mod, Nat.mod_eq_of_lt hr,
    Nat.mul_add_div (Nat.two_pow_pos m), Nat.div_eq_of_lt hr, Nat.add_zero, Nat.mul_comm, Nat.add_comm]

/-- A byte written to PCL loads the pc from the latches, bit 0 cleared (R26). -/
theorem evenPc_join (u : BitVec 5) (h v : Byte) :
    evenPc (u ++ h ++ v) = BitVec.ofNat 21 (u.toNat * 65536 + h.toNat * 256 + v.toNat / 2 * 2) := by
  apply BitVec.eq_of_toNat_eq
  have := u.isLt
  have := h.isLt
  have := v.isLt
  rw [evenPc_toNat, toNat_append_eq, toNat_append_eq, BitVec.toNat_ofNat]
  omega

theorem extractLsb'_low {w : Nat} (x : BitVec w) (n : Nat) : x.extractLsb' 0 n = BitVec.ofNat n x.toNat := by
  rw [extractLsb'_eq_ofNat, Nat.pow_zero, Nat.div_one]

/-- Every bit of PIR1, PIE1 and IPR1 can be written, RCIF and TXIF apart. -/
theorem writePir1_eq (old v : Byte) : writePir1 old v = (old &&& 0x30#8) ||| (v &&& 0xCF#8) := by
  rw [writePir1, pspMask_eq, BitVec.and_assoc]
  rfl

theorem and_pspMask (v : Byte) : v &&& pspMask = v := by
  rw [pspMask_eq]
  exact BitVec.and_allOnes

/-- A write to a byte of a pointer (R23). -/
theorem pokeSfr_fsrl (n : FsrIndex) (a : DAddr) (v : Byte) (s : State) :
    pokeSfr (.fsrl n) a v s = s.setFsr n (BitVec.ofNat 12 ((s.fsr n).toNat / 256 * 256 + v.toNat)) :=
  congrArg (s.setFsr n) (join_low (k := 4) (s.fsr n) v)

theorem pokeSfr_fsrh (n : FsrIndex) (a : DAddr) (v : Byte) (s : State) :
    pokeSfr (.fsrh n) a v s = s.setFsr n (BitVec.ofNat 12 (v.toNat * 256 + (s.fsr n).toNat % 256)) :=
  congrArg (s.setFsr n) (join_high (k := 4) (m := 8) (s.fsr n) v)

/-- A write to a byte of the table pointer (R29). -/
theorem pokeSfr_tblptr (a : DAddr) (v : Byte) (s : State) :
    pokeSfr .tblptrl a v s = { s with tblptr := BitVec.ofNat 22 (s.tblptr.toNat / 256 * 256 + v.toNat) } ∧
      pokeSfr .tblptrh a v s =
        { s with tblptr := BitVec.ofNat 22 (s.tblptr.toNat / 65536 * 65536 + v.toNat * 256 + s.tblptr.toNat % 256) } ∧
      pokeSfr .tblptru a v s = { s with tblptr := BitVec.ofNat 22 (v.toNat * 65536 + s.tblptr.toNat % 65536) } :=
  ⟨congrArg (fun p => { s with tblptr := p }) (join_low (k := 14) s.tblptr v),
    congrArg (fun p => { s with tblptr := p }) (join_middle (k := 6) s.tblptr v),
    congrArg (fun p => { s with tblptr := p }) (join_high (k := 6) (m := 16) s.tblptr v)⟩

/-- A write to a byte of the top entry (R42). -/
theorem pokeSfr_tos (a : DAddr) (v : Byte) {s : State} (h : s.sp ≠ 0#5) :
    (pokeSfr .tosl a v s).stackEntry s.sp = BitVec.ofNat 21 ((s.stackEntry s.sp).toNat / 256 * 256 + v.toNat) ∧
      (pokeSfr .tosh a v s).stackEntry s.sp =
        BitVec.ofNat 21 ((s.stackEntry s.sp).toNat / 65536 * 65536 + v.toNat * 256 + (s.stackEntry s.sp).toNat % 256) ∧
      (pokeSfr .tosu a v s).stackEntry s.sp = BitVec.ofNat 21 (v.toNat * 65536 + (s.stackEntry s.sp).toNat % 65536) :=
  ⟨(State.stackEntry_setStackEntry_same _ _ _ h).trans (join_low (k := 13) _ v),
    (State.stackEntry_setStackEntry_same _ _ _ h).trans (join_middle (k := 5) _ v),
    (State.stackEntry_setStackEntry_same _ _ _ h).trans (join_high (k := 5) (m := 16) _ v)⟩

/-- Settles O39: register by register through the map. -/
theorem dataWriteMap : Obligations.DataWriteMap := by
  intro v s
  dsimp only
  have low {n : Nat} : v.extractLsb' 0 n = BitVec.ofNat n v.toNat := extractLsb'_low v n
  have fsrl (a : DAddr) (n : FsrIndex) (h : sfrAt a = some (.fsrl n)) := (poke_sfr _ h v s).trans (pokeSfr_fsrl n a v s)
  have fsrh (a : DAddr) (n : FsrIndex) (h : sfrAt a = some (.fsrh n)) := (poke_sfr _ h v s).trans (pokeSfr_fsrh n a v s)
  refine ⟨⟨poke_sfr .wreg rfl v s, poke_sfr .status rfl v s, ?_⟩,
    ⟨⟨fsrl _ .f0 rfl, fsrh _ .f0 rfl⟩, ⟨fsrl _ .f1 rfl, fsrh _ .f1 rfl⟩, fsrl _ .f2 rfl, fsrh _ .f2 rfl⟩,
    ⟨?_, poke_sfr .pclath rfl v s, ?_⟩, ⟨?_, fun hsp => ⟨?_, ?_, ?_⟩⟩,
    ⟨poke_sfr .prodl rfl v s, poke_sfr .prodh rfl v s, poke_sfr .tablat rfl v s, ?_, ?_, ?_⟩,
    ⟨?_, ?_, poke_sfr .intcon2 rfl v s, poke_sfr .intcon3 rfl v s, ?_, ?_, ?_, ?_, ?_, poke_sfr .pir2 rfl v s,
      poke_sfr .pie2 rfl v s, poke_sfr .ipr2 rfl v s⟩, fun a ha hnone => ?_⟩
  · rw [poke_sfr .bsr rfl, pokeSfr, low]
  · rw [poke_sfr .pcl rfl, pokeSfr, State.jump, evenPc_join]
  · rw [poke_sfr .pclatu rfl, pokeSfr, low]
  · rw [poke_sfr .stkptr rfl, pokeSfr, low]
  · rw [poke_sfr .tosl rfl]; exact (pokeSfr_tos _ v hsp).1
  · rw [poke_sfr .tosh rfl]; exact (pokeSfr_tos _ v hsp).2.1
  · rw [poke_sfr .tosu rfl]; exact (pokeSfr_tos _ v hsp).2.2
  · rw [poke_sfr .tblptrl rfl]; exact (pokeSfr_tblptr _ v s).1
  · rw [poke_sfr .tblptrh rfl]; exact (pokeSfr_tblptr _ v s).2.1
  · rw [poke_sfr .tblptru rfl]; exact (pokeSfr_tblptr _ v s).2.2
  · rw [poke_sfr .intcon rfl]; exact Intcon.toByte_ofByte v
  · rw [poke_sfr .intcon rfl]; rfl
  · rw [poke_sfr .rcon rfl]; exact Rcon.toByte_ofByte v
  · rw [poke_sfr .rcon rfl]; rfl
  · rw [poke_sfr .pir1 rfl, pokeSfr, writePir1_eq]
  · rw [poke_sfr .pie1 rfl, pokeSfr, and_pspMask]
  · rw [poke_sfr .ipr1 rfl, pokeSfr, and_pspMask]
  · simp [poke, cellAt_unimplemented ha hnone]

/-! ### RAM (R83, R104) -/

theorem peek_gpr {a : DAddr} (h : a.toNat ≤ Config.gprTop) (s : State) : peek (some a) s = s.ramAt a := by
  simp [peek, cellAt_gpr.2 h]

/-- Settles O40: a write changes one byte of RAM, and reads back. -/
theorem ramReadAfterWrite : Obligations.RamReadAfterWrite := by
  intro a v s hwf ha
  have hcell := cellAt_gpr.2 ha
  refine ⟨?_, fun b hne hb => ?_, ?_⟩
  · rw [peek_gpr ha, poke_ramAt_same hcell hwf]
  · rw [peek_gpr hb, peek_gpr hb, poke_ramAt fun h => hne (Option.some.inj h).symm]
  · simp only [poke, hcell]
    rfl
end Sys2Proof

end

section
/-! Proofs of the byte- and bit-oriented instructions, MOVFF and the computed jump. -/

namespace Sys2Proof

open Machine

/-! ### From a template to the result of an instruction -/

theorem fileResult {i : Instr} {f : Byte} {d a : Bool} {alu : Byte → Byte → Status → Byte × FlagWrite} {s : State} {r : Byte}
    {fw : FlagWrite} (hexec : exec i s = outcome (fileOp f d a alu noSkip s)) (hok : FileOk f d a s)
    (halu : alu (operand (ea f a s) s) s.w s.status = (r, fw)) : FileResult i f d a s r fw := by
  rw [FileResult, hexec, outcome_next_iff, fileOp_ok_iff, halu]
  exact ⟨hok, rfl⟩

theorem countResult {i : Instr} {f : Byte} {d a : Bool} {alu : Byte → Byte → Status → Byte × FlagWrite} {skips : Byte → Bool}
    {s : State} {r : Byte} {b : Bool} (hexec : exec i s = outcome (fileOp f d a alu skips s)) (hok : FileOk f d a s)
    (halu : alu (operand (ea f a s) s) s.w s.status = (r, .nothing)) (hskip : skips r = b) : CountResult i f d a s r b := by
  dsimp only [CountResult]
  rw [hexec, outcome_next_iff, fileOp_ok_iff, halu, ← hskip]
  exact ⟨hok, rfl⟩

theorem testResult {i : Instr} {f : Byte} {a : Bool} {test : Byte → Byte → Bool} {s : State} {b : Bool}
    (hexec : exec i s = outcome (fileTest f a test s)) (hok : Readable (ea f a s) s)
    (htest : test (operand (ea f a s) s) s.w = b) : TestResult i f a s b := by
  rw [TestResult, hexec, outcome_next_iff, fileTest_ok_iff, htest]
  exact ⟨hok, rfl⟩

theorem storeResult {i : Instr} {f : Byte} {a : Bool} {v : Byte} {fw : FlagWrite} {s : State}
    (hexec : exec i s = outcome (fileStore f a v fw s)) (hok : Writable (ea f a s) s) : StoreResult i f a s v fw := by
  rw [StoreResult, hexec, outcome_next_iff, fileStore_ok_iff]
  exact ⟨hok, rfl⟩

/-! ### Arithmetic, logic, rotates -/

/-- Settles O15: each form is the template over its operation. -/
theorem fileArithmetic : Obligations.FileArithmetic := fun _ _ _ _ hok =>
  ⟨fileResult rfl hok rfl, fileResult rfl hok rfl, fileResult rfl hok rfl, fileResult rfl hok rfl, fileResult rfl hok rfl,
    fileResult rfl hok rfl, fileResult rfl hok rfl⟩

theorem not_eq_ofNat (v : Byte) : ~~~v = BitVec.ofNat 8 (255 - v.toNat) := by
  apply BitVec.eq_of_toNat_eq
  rw [not_toNat_byte, BitVec.toNat_ofNat]
  omega

theorem swapNibbles_eq (v : Byte) : swapNibbles v = BitVec.ofNat 8 (v.toNat % 16 * 16 + v.toNat / 16) := by
  apply BitVec.eq_of_toNat_eq
  have hhigh : v.toNat / 2 ^ 4 < 2 ^ 4 := Nat.div_lt_of_lt_mul v.isLt
  rw [swapNibbles, toNat_append_eq, toNat_extractLsb'_eq, toNat_extractLsb'_eq, Nat.mod_eq_of_lt hhigh, BitVec.toNat_ofNat]
  omega

/-- Settles O16: the template over each operation, its flags by `flagsZN_eq`. -/
theorem fileLogic : Obligations.FileLogic := by
  intro f d a s hok
  dsimp only
  refine ⟨fileResult rfl hok ?_, fileResult rfl hok ?_, fileResult rfl hok ?_, fileResult rfl hok ?_, ?_, ?_⟩
  · rw [flagsZN_eq]
  · rw [logic, flagsZN_eq]
  · rw [logic, flagsZN_eq]
  · rw [logic, flagsZN_eq]
  · rw [← not_eq_ofNat]
    exact fileResult rfl hok (by rw [logic, flagsZN_eq])
  · rw [← swapNibbles_eq]
    exact fileResult rfl hok rfl

/-- The rotates over the numbers (R230 to R233). -/
theorem rotLeftCarry_toNat (v : Byte) (c : Bool) : (rotLeftCarry v c).1.toNat = v.toNat * 2 % 256 + c.toNat := by
  rw [rotLeftCarry, toNat_append_eq, toNat_extractLsb'_eq, BitVec.toNat_ofBool]
  omega

theorem rotLeft_toNat (v : Byte) : (rotLeft v).1.toNat = v.toNat * 2 % 256 + v.toNat / 128 := by
  have := v.isLt
  rw [rotLeft, toNat_append_eq, toNat_extractLsb'_eq, toNat_extractLsb'_eq]
  omega

theorem rotRightCarry_toNat (v : Byte) (c : Bool) : (rotRightCarry v c).1.toNat = v.toNat / 2 + 128 * c.toNat := by
  have := v.isLt
  rw [rotRightCarry, toNat_append_eq, toNat_extractLsb'_eq, BitVec.toNat_ofBool]
  omega

theorem rotRight_toNat (v : Byte) : (rotRight v).1.toNat = v.toNat / 2 + 128 * (v.toNat % 2) := by
  have := v.isLt
  rw [rotRight, toNat_append_eq, toNat_extractLsb'_eq, toNat_extractLsb'_eq]
  omega

/-- Settles O17: the results are the model's rotates, by the numbers above. -/
theorem fileRotates : Obligations.FileRotates := by
  intro f d a s hok
  exact ⟨⟨_, rotLeftCarry_toNat _ _, fileResult rfl hok rfl⟩, ⟨_, rotLeft_toNat _, fileResult rfl hok rfl⟩,
    ⟨_, rotRightCarry_toNat _ _, fileResult rfl hok rfl⟩, ⟨_, rotRight_toNat _, fileResult rfl hok rfl⟩⟩

/-! ### Negation, single bits, stores -/

/-- Settles O18: the bit of the mask is the bit changed. -/
theorem negateAndBitChange : Obligations.NegateAndBitChange := by
  intro f b a s hok
  refine ⟨fileResult rfl hok rfl, ⟨_, fun n hn => ?_, fileResult rfl hok rfl⟩, ⟨_, fun n _ => ?_, fileResult rfl hok rfl⟩,
    ⟨_, fun n _ => ?_, fileResult rfl hok rfl⟩⟩
  · simp only [BitVec.getLsbD_and, BitVec.getLsbD_not, bitMask_getLsbD]
    by_cases h : n = b.toNat <;> simp [h, hn]
  · simp only [BitVec.getLsbD_or, bitMask_getLsbD]
    by_cases h : n = b.toNat <;> simp [h]
  · simp only [BitVec.getLsbD_xor, bitMask_getLsbD]
    by_cases h : n = b.toNat <;> simp [h]

/-- Settles O19: the template that stores without reading. -/
theorem storeToFile : Obligations.StoreToFile := fun _ _ _ hok =>
  ⟨storeResult rfl hok, storeResult rfl hok, storeResult rfl hok⟩

/-! ### Counting, comparing, multiplying -/

theorem pred_eq_ofNat (v : Byte) : v - 1#8 = BitVec.ofNat 8 (v.toNat + 255) := by
  apply BitVec.eq_of_toNat_eq
  simp [BitVec.toNat_sub, Nat.add_comm]

theorem succ_eq_ofNat (v : Byte) : v + 1#8 = BitVec.ofNat 8 (v.toNat + 1) := by
  apply BitVec.eq_of_toNat_eq
  simp [BitVec.toNat_add]

theorem pred_eq_zero_iff (v : Byte) : BitVec.ofNat 8 (v.toNat + 255) = 0#8 ↔ v.toNat = 1 := by
  have := v.isLt
  rw [← BitVec.toNat_inj, BitVec.toNat_ofNat, BitVec.toNat_ofNat]
  omega

theorem succ_eq_zero_iff (v : Byte) : BitVec.ofNat 8 (v.toNat + 1) = 0#8 ↔ v.toNat = 255 := by
  have := v.isLt
  rw [← BitVec.toNat_inj, BitVec.toNat_ofNat, BitVec.toNat_ofNat]
  omega

theorem beq_zero_of_iff {r : Byte} {p : Prop} [Decidable p] (h : r = 0#8 ↔ p) : (r == 0#8) = decide p := by
  rw [Bool.eq_iff_iff, beq_iff_eq, decide_eq_true_eq, h]

theorem bne_zero_of_iff {r : Byte} {p : Prop} [Decidable p] (h : r = 0#8 ↔ p) : (r != 0#8) = decide ¬ p := by
  rw [bne, beq_zero_of_iff h, decide_not]

/-- Settles O20: the count is 0 exactly for the byte before it. -/
theorem countAndSkip : Obligations.CountAndSkip := by
  intro f d a s hok
  refine ⟨countResult rfl hok ?_ (beq_zero_of_iff (pred_eq_zero_iff _)),
    countResult rfl hok ?_ (bne_zero_of_iff (pred_eq_zero_iff _)),
    countResult rfl hok ?_ (beq_zero_of_iff (succ_eq_zero_iff _)),
    countResult rfl hok ?_ (bne_zero_of_iff (succ_eq_zero_iff _))⟩
  · rw [pred_eq_ofNat]
  · rw [pred_eq_ofNat]
  · rw [succ_eq_ofNat]
  · rw [succ_eq_ofNat]

/-- Settles O21: the template that reads and skips, over each test. -/
theorem compareAndTest : Obligations.CompareAndTest := fun _ _ _ _ hok =>
  ⟨testResult rfl hok rfl, testResult rfl hok rfl, testResult rfl hok rfl, testResult rfl hok rfl, testResult rfl hok rfl,
    testResult rfl hok rfl⟩

/-- Settles O22: the product of W, which the read leaves, and the byte read. -/
theorem multiplyFile : Obligations.MultiplyFile := by
  intro f a s hok
  refine ⟨_, exec_mulwf_next_iff.2 ⟨hok, rfl⟩, setProd_toNat (afterRead (ea f a s) s) s.w (operand (ea f a s) s), ?_⟩
  have hpc := afterRead_pc (ea f a s) s
  simp only [State.advance, State.jump, State.setProd, hpc]

/-! ### MOVFF (R163) -/

theorem movffForbidden_iff {fd : DAddr} : movffForbidden fd = true ↔ fd ∈ [0xFF9#12, 0xFFD#12, 0xFFE#12, 0xFFF#12] := by
  simp [movffForbidden, or_assoc]

/-- Settles O23: MOVFF's result where it can run, and its two addresses tested first. -/
theorem moveFileToFile : Obligations.MoveFileToFile := by
  intro fs fd s
  refine ⟨fun hok => exec_movff_next_iff.2 ⟨hok, rfl⟩, fun hfd => ?_, fun hfd hfs => ?_⟩
  · show execMovff fs fd s = _
    rw [execMovff, if_pos (movffForbidden_iff.2 hfd)]
  · show execMovff fs fd s = _
    rw [execMovff, if_neg (mt movffForbidden_iff.1 hfd), if_pos hfs]

/-! ### STATUS as the destination (R31) -/

theorem stored_to_status (r : Byte) (s : State) :
    (stored true (some 0xFD8#12) r .nothing s).status = Status.ofByte r := by
  have hwritten : stored true (some 0xFD8#12) r .nothing s = poke (some 0xFD8#12) r s := rfl
  rw [hwritten, poke_sfr .status rfl]
  rfl

theorem writable_of_status {A : DAddr} {s : State} (hT : target A s = some 0xFD8#12) (hres : Resolvable A s) :
    Writable A s := by
  refine ⟨⟨hres, ?_⟩, ?_⟩ <;> rw [hT]
  · exact fun h => absurd h (by decide)
  · decide

theorem operand_of_status {A : DAddr} {s : State} (hT : target A s = some 0xFD8#12) : operand A s = s.status.toByte := by
  rw [operand, hT, peek_sfr .status rfl, peekSfr, bump_status]

/-- The byte of STATUS has no bit above 4. -/
theorem Status.toByte_and (st : Status) : st.toByte &&& 0x1F#8 = st.toByte := by
  rw [← Status.toByte_ofByte, Status.ofByte_toByte]

/-- A form that stores to `f` completes when its operand can be written. -/
theorem storing_form_completes {f : Byte} {b : BitVec 3} {a : Bool} {i : Instr} {s : State} (hok : Writable (ea f a s) s)
    (hi : i ∈ aluForms f true a ++ modifyForms f b a ++ storeForms f a) :
    fileOperand i = some (f, a) ∧ ∃ t, exec i s = .next t := by
  rw [List.mem_append, List.mem_append] at hi
  rcases hi with (hi | hi) | hi
  · obtain ⟨alu, skips, hform⟩ := fileForm_of_aluForms hi
    exact ⟨hform.file, _, hform.next_iff.2 ⟨⟨hok.1, fun _ => hok⟩, rfl⟩⟩
  · obtain ⟨alu, skips, hform⟩ := fileForm_of_modifyForms hi
    exact ⟨hform.file, _, hform.next_iff.2 ⟨⟨hok.1, fun _ => hok⟩, rfl⟩⟩
  · obtain ⟨v, fw, hform⟩ := storeForm_of_storeForms hi
    exact ⟨hform.file, _, hform.next_iff.2 ⟨hok, rfl⟩⟩

/-- Settles O41: STATUS can be written; the flags by `flagsChangeOnlyAsListed`, the data by the byte of STATUS. -/
theorem statusAsDestination : Obligations.StatusAsDestination := by
  intro f b a s hT hres
  have hok := writable_of_status hT hres
  refine ⟨fun i hi hlists => ?_, ?_⟩
  · obtain ⟨hfile, t, ht⟩ := storing_form_completes hok hi
    have hne {j : Instr} (hj : fileOperand j = none) : i ≠ j := fun h => by rw [h, hj] at hfile; cases hfile
    exact ⟨t, ht, flagsChangeOnlyAsListed i s t ht (hne rfl) (hne rfl) (hne rfl) fun _ => hlists⟩
  · obtain ⟨hmovwf, -, hsetf⟩ := storeToFile f a s hok
    have hbsf : FileResult (.bsf f b a) f true a s (s.status.toByte ||| bitMask b) .nothing :=
      fileResult rfl ⟨hok.1, fun _ => hok⟩ (by rw [operand_of_status hT])
    have hbcf : FileResult (.bcf f b a) f true a s (s.status.toByte &&& ~~~bitMask b) .nothing :=
      fileResult rfl ⟨hok.1, fun _ => hok⟩ (by rw [operand_of_status hT])
    have hstatus (r : Byte) (u : State) : (stored true (target (ea f a s) s) r .nothing u).status.toByte = r &&& 0x1F#8 := by
      rw [hT, stored_to_status, Status.toByte_ofByte]
    refine ⟨_, _, _, _, hmovwf, hstatus _ _, hsetf, hstatus _ _, hbsf, hstatus _ _, hbcf, (hstatus _ _).trans ?_⟩
    rw [BitVec.and_assoc, BitVec.and_comm (~~~bitMask b), ← BitVec.and_assoc, Status.toByte_and]

/-! ### The computed jump (R26) -/

/-- Settles O42: the read of PCL latches the upper bytes of pc + 2, which the write of the sum loads. -/
theorem computedJump : Obligations.ComputedJump := by
  intro s
  have hT : target (ea 0xF9#8 false s) s = some 0xFF9#12 := target_of_not_window rfl s
  have hbump : bump (ea 0xF9#8 false s) s = s := bump_of_not_window rfl s
  have hread : Readable (ea 0xF9#8 false s) s := by
    refine ⟨fun k n h => ?_, fun h => ?_⟩
    · cases h
    · rw [hT] at h
      exact absurd h (by decide)
  have hok : FileOk 0xF9#8 true false s := ⟨hread, fun _ => ⟨hread, by rw [hT]; decide⟩⟩
  have hop : operand (ea 0xF9#8 false s) s = peekSfr .pcl s := by rw [operand, hT, hbump, peek_sfr .pcl rfl]
  have hafter : afterRead (ea 0xF9#8 false s) s =
      { s with pclath := BitVec.ofNat 8 ((s.pc + 2#21).toNat / 256),
               pclatu := BitVec.ofNat 5 ((s.pc + 2#21).toNat / 65536) } := by
    rw [afterRead, hT, hbump, readEffect_pcl]
  have hexec := (fileArithmetic 0xF9#8 true false s hok).1
  dsimp only [FileResult] at hexec
  rw [hT, hop, hafter] at hexec
  have hstored (r : Byte) (u : State) : stored true (some 0xFF9#12) r (add8 s.w (peekSfr .pcl s) false).2 u =
      (u.jump (u.pclatu ++ u.pclath ++ r)).setFlags (add8 s.w (peekSfr .pcl s) false).2 := by
    rw [stored, written, if_pos rfl, if_neg (by simp), poke_sfr .pcl rfl]
    rfl
  rw [hstored] at hexec
  refine ⟨_, hexec, ?_, ?_, rfl⟩
  · have hpc := (s.pc + 2#21).isLt
    show (evenPc _).toNat = _
    rw [evenPc_join, BitVec.toNat_ofNat, add8_toNat, peekSfr, toNat_extractLsb'_eq]
    simp
    omega
  · have hpc := (s.pc + 2#21).isLt
    simp
    omega
end Sys2Proof

end

section
/-! What the instructions with a data operand leave unchanged. -/

namespace Sys2Proof

open Machine

/-! ### What reading an operand changes -/

theorem readFrame_afterRead (A : DAddr) (s : State) : ReadFrame A s (afterRead A s) := by
  obtain ⟨p0, p1, p2, hbump⟩ : ∃ p0 p1 p2, bump A s = { s with fsr0 := p0, fsr1 := p1, fsr2 := p2 } := ⟨_, _, _, bump_eq A s⟩
  constructor
  · rw [afterRead]
    rcases readEffect_cases (target A s) (bump A s) with h | ⟨-, h⟩ | ⟨a, p, -, -, h⟩ <;> rw [h, hbump]
  · intro hT
    rw [afterRead]
    rcases readEffect_cases (target A s) (bump A s) with h | ⟨hpcl, -⟩ | ⟨a, p, -, -, h⟩
    · simp [h]
    · exact absurd hpcl hT
    · simp [h]
  · intro hperiph
    rw [afterRead]
    rcases readEffect_cases (target A s) (bump A s) with h | ⟨-, h⟩ | ⟨a, p, hT, hc, -⟩
    · simp [h]
    · simp [h]
    · exact absurd hc (hperiph a p hT)

/-- The fields the frame leaves open can be written after the read. -/
theorem Machine.ReadFrame.update {A : DAddr} {s u : State} (h : ReadFrame A s u) (pc : PAddr) (w : Byte) (st : Status)
    (hi lo : Byte) : ReadFrame A s { u with pc := pc, w := w, status := st, prodh := hi, prodl := lo } := by
  obtain ⟨hrest, hpcl, hdraws⟩ := h
  refine ⟨?_, hpcl, hdraws⟩
  obtain ⟨p, w', st', hi', lo', l, l', n, hu⟩ : ∃ p w' st' hi' lo' l l' n, u = { s with
      pc := p, w := w', status := st', prodh := hi', prodl := lo', fsr0 := (bump A s).fsr0, fsr1 := (bump A s).fsr1,
      fsr2 := (bump A s).fsr2, pclath := l, pclatu := l', draws := n } := ⟨_, _, _, _, _, _, _, _, hrest⟩
  rw [hu]

/-- A `d` = 0 form writes W, the flags and the pc after the read. -/
theorem readFrame_fileOpResult (f : Byte) (a : Bool) (alu : Byte → Byte → Status → Byte × FlagWrite) (skips : Byte → Bool)
    (s : State) :
    ReadFrame (ea f a s) s (fileOpResult f false a alu skips s) ∧ (fileOpResult f false a alu skips s).prodh = s.prodh ∧
      (fileOpResult f false a alu skips s).prodl = s.prodl := by
  have hread := readFrame_afterRead (ea f a s) s
  unfold fileOpResult
  dsimp only
  split
  · exact ⟨hread.update _ _ _ _ _, by simp [stored, written], by simp [stored, written]⟩
  · exact ⟨hread.update _ _ _ _ _, by simp [stored, written], by simp [stored, written]⟩

/-- Settles O43: the forms write the fields `ReadFrame` leaves open, after the read. -/
theorem readingFormsFrame : Obligations.ReadingFormsFrame := by
  intro f b a s t
  have hread := readFrame_afterRead (ea f a s) s
  refine ⟨fun i hi h => ?_, fun i hi h => ?_, fun h => ?_⟩
  · obtain ⟨alu, skips, hform⟩ := fileForm_of_aluForms hi
    obtain ⟨-, rfl⟩ := hform.next_iff.1 h
    obtain ⟨hframe, hprodh, hprodl⟩ := readFrame_fileOpResult f a alu skips s
    exact ⟨hframe, hprodh, hprodl, (hform.listed _ _ _).kept (fileOpResult_status nofun)⟩
  · obtain ⟨test, hform⟩ := testForm_of_testForms hi
    obtain ⟨-, rfl⟩ := hform.next_iff.1 h
    exact ⟨hread.update _ _ _ _ _, by simp, by simp, by simp, by simp⟩
  · obtain ⟨-, rfl⟩ := exec_mulwf_next_iff.1 h
    exact ⟨hread.update _ _ _ _ _, by simp, by simp⟩

/-! ### What storing to an operand changes -/

theorem storeFrame_afterRead (A : DAddr) (s : State) : StoreFrame A s (afterRead A s) := by
  have hpcl := (readFrame_afterRead A s).pcl
  constructor
  case core => exact coreFrame_afterRead A s
  case fsr => intro n _ _; exact readEffect_fsr _ _ n
  case pclath => exact fun _ h => (hpcl h).1
  case pclatu => exact fun _ h => (hpcl h).2
  case memory => exact fun b _ => by simp [State.ramAt]
  case stack_rest => exact fun j _ _ => State.stackEntry_congr (afterRead_stack A s) j
  all_goals simp

theorem storeFrame_bump (A : DAddr) (s : State) : StoreFrame A s (bump A s) := by
  constructor
  case core => exact coreFrame_bump A s
  case fsr => exact fun _ _ _ => rfl
  case memory => exact fun b _ => by simp [State.ramAt]
  case stack_rest => exact fun j _ _ => State.stackEntry_congr (bump_stack A s) j
  all_goals simp

theorem Machine.StoreFrame.poke {A : DAddr} {s u : State} (h : StoreFrame A s u) (hsp : u.sp = s.sp) (v : Byte) :
    StoreFrame A s (poke (target A s) v u) where
  core := h.core.trans (coreFrame_poke _ _ _)
  memory b hb := (poke_ramAt hb).trans (h.memory b hb)
  w hT := (poke_w hT).trans (h.w hT)
  bsr hT := (poke_bsr hT).trans (h.bsr hT)
  fsr n hl hh := (poke_fsr hl hh).trans (h.fsr n hl hh)
  pclath hT hpcl := (poke_pclath hT).trans (h.pclath hT hpcl)
  pclatu hT hpcl := (poke_pclatu hT).trans (h.pclatu hT hpcl)
  prodh hT := (poke_prodh hT).trans (h.prodh hT)
  prodl hT := (poke_prodl hT).trans (h.prodl hT)
  tblptr hT := (poke_tblptr hT).trans (h.tblptr hT)
  tablat hT := (poke_tablat hT).trans (h.tablat hT)
  sp hT := (poke_sp hT).trans (h.sp hT)
  stack hT := (poke_stack hT).trans (h.stack hT)
  stack_rest j hj hne := (poke_stackEntry hj (hsp ▸ hne)).trans (h.stack_rest j hj hne)
  intcon hT := (poke_intcon hT).trans (h.intcon hT)
  intcon2 hT := (poke_intcon2 hT).trans (h.intcon2 hT)
  intcon3 hT := (poke_intcon3 hT).trans (h.intcon3 hT)
  rcon hT := (poke_rcon hT).trans (h.rcon hT)
  pir1 hT := (poke_pir1 hT).trans (h.pir1 hT)
  pie1 hT := (poke_pie1 hT).trans (h.pie1 hT)
  ipr1 hT := (poke_ipr1 hT).trans (h.ipr1 hT)
  pir2 hT := (poke_pir2 hT).trans (h.pir2 hT)
  pie2 hT := (poke_pie2 hT).trans (h.pie2 hT)
  ipr2 hT := (poke_ipr2 hT).trans (h.ipr2 hT)

/-- The pc and the flags are no part of the frame. -/
theorem Machine.StoreFrame.update {A : DAddr} {s u : State} (h : StoreFrame A s u) (pc : PAddr) (st : Status) :
    StoreFrame A s { u with pc := pc, status := st } :=
  { h with core := { h.core with } }

theorem Machine.StoreFrame.advance {A : DAddr} {s u : State} (h : StoreFrame A s u) (n : Nat) :
    StoreFrame A s (u.advance n) := h.update _ _

theorem storeFrame_stored {A : DAddr} {s u : State} (h : StoreFrame A s u) (hsp : u.sp = s.sp) (r : Byte) (fw : FlagWrite) :
    StoreFrame A s (stored true (target A s) r fw u) := by
  rw [stored]
  rcases written_cases true fw.affects (target A s) r u with hw | ⟨-, hw⟩ | ⟨hd, -⟩
  · rw [hw]; exact h.update _ _
  · rw [hw]; exact (h.poke hsp r).update _ _
  · cases hd

/-- What the forms that store to `f` have in common: their operand, the address they write, and their frame. -/
theorem storing_form_result {f : Byte} {b : BitVec 3} {a : Bool} {i : Instr} {s t : State}
    (hi : i ∈ aluForms f true a ++ modifyForms f b a ++ storeForms f a) (h : exec i s = .next t) :
    fileOperand i = some (f, a) ∧ writtenAddress i s = target (ea f a s) s ∧ StoreFrame (ea f a s) s t := by
  have hfile {alu skips} (hform : FileForm i f true a alu skips) :
      fileOperand i = some (f, a) ∧ writtenAddress i s = target (ea f a s) s ∧ StoreFrame (ea f a s) s t := by
    obtain ⟨-, rfl⟩ := hform.next_iff.1 h
    refine ⟨hform.file, hform.written s, ?_⟩
    unfold fileOpResult
    generalize alu (operand (ea f a s) s) s.w s.status = out
    have hstored := storeFrame_stored ((storeFrame_afterRead (ea f a s) s).advance 2) (afterRead_sp _ _) out.1 out.2
    dsimp only
    split
    · exact hstored.update _ _
    · exact hstored
  rw [List.mem_append, List.mem_append] at hi
  rcases hi with (hi | hi) | hi
  · obtain ⟨alu, skips, hform⟩ := fileForm_of_aluForms hi
    exact hfile hform
  · obtain ⟨alu, skips, hform⟩ := fileForm_of_modifyForms hi
    exact hfile hform
  · obtain ⟨v, fw, hform⟩ := storeForm_of_storeForms hi
    obtain ⟨-, rfl⟩ := hform.next_iff.1 h
    exact ⟨hform.file, hform.written s, storeFrame_stored ((storeFrame_bump _ s).advance 2) (bump_sp _ _) _ _⟩

/-- Settles O44: the frame of a store, and the flags by `flagsChangeOnlyAsListed`. -/
theorem storingFormsFrame : Obligations.StoringFormsFrame := by
  intro f b a s t i hi h
  obtain ⟨hfile, hwritten, hframe⟩ := storing_form_result hi h
  have hne {j : Instr} (hj : fileOperand j = none) : i ≠ j := fun he => by rw [he, hj] at hfile; cases hfile
  refine ⟨hframe, fun hor => flagsChangeOnlyAsListed i s t h (hne rfl) (hne rfl) (hne rfl) fun hstatus => ?_⟩
  exact hor.resolve_left fun hT => hT (hwritten ▸ hstatus)

/-- Settles O45: a write to the destination in the state after the source is read. -/
theorem movffFrame : Obligations.MovffFrame := by
  intro fs fd s t h
  obtain ⟨-, rfl⟩ := exec_movff_next_iff.1 h
  have hframe := (storeFrame_bump fd ((afterRead fs s).advance 4)).poke (bump_sp _ _) (operand fs s)
  refine ⟨hframe, fun hT => ?_, fun hT => ?_, fun b hb => (hframe.memory b hb).trans ?_⟩
  · simp [poke_status hT]
  · rw [poke_pc hT, bump_pc]
    simp
  · simp [State.ramAt]
end Sys2Proof

end

section
/-! The faults of the instructions: what each template stops for, and which states raise it. -/

namespace Sys2Proof

open Machine

/-! ### Why a template stops -/

theorem not_mem_tosTargets_eecon2 {T : Target} (h : T = some 0xFA7#12) : T ∉ tosTargets := by
  rw [h]; decide

theorem writeFault_some_iff {T : Target} {s : State} {e : Fault} :
    writeFault T s = some e ↔
      (T = some 0xFA7#12 ∧ e = .selfProgramming) ∨ (T ∈ tosTargets ∧ s.sp = 0#5 ∧ e = .stackEmptyAccess) := by
  rw [writeFault_eq]
  by_cases hT : T = some 0xFA7#12
  · have hn := not_mem_tosTargets_eecon2 hT
    rw [if_pos hT]
    refine ⟨fun h => .inl ⟨hT, (Option.some.inj h).symm⟩, ?_⟩
    rintro (⟨-, rfl⟩ | ⟨htos, -⟩)
    · rfl
    · exact absurd htos hn
  · by_cases htos : T ∈ tosTargets ∧ s.sp = 0#5
    · simp [hT, htos, eq_comm]
    · simp only [hT, htos, if_false, false_and, false_or]
      exact iff_of_false nofun fun h => htos ⟨h.1, h.2.1⟩

theorem writeData_error_iff {T : Target} {v : Byte} {s : State} {e : Fault} :
    writeData T v s = .error e ↔ writeFault T s = some e := by
  unfold writeData
  cases writeFault T s <;> simp

/-- Suppressing the write to STATUS stops nothing: STATUS can always be written. -/
theorem writeF_error_iff {affects : Bool} {T : Target} {v : Byte} {s : State} {e : Fault} :
    writeF affects T v s = .error e ↔ writeFault T s = some e := by
  unfold writeF
  cases hS : (affects && T == some 0xFD8#12)
  · exact writeData_error_iff
  · have hT : T = some 0xFD8#12 := by simp only [Bool.and_eq_true, beq_iff_eq] at hS; exact hS.2
    rw [if_pos rfl, writeFault_none_iff.2 (hT ▸ targetOk_status s)]
    exact iff_of_false nofun nofun

/-- Why an operand that is stored to stops: as a read of it does, or at EECON2 (R107). -/
def StoreFault (A : DAddr) (s : State) (e : Fault) : Prop :=
  readOperand A s = .error e ∨ (Readable A s ∧ target A s = some 0xFA7#12 ∧ e = .selfProgramming)

/-- Of a readable operand only EECON2 cannot be written. -/
theorem writeFault_of_readable {A : DAddr} {s t : State} {e : Fault} (h : Readable A s) (hsp : t.sp = s.sp) :
    writeFault (target A s) t = some e ↔ target A s = some 0xFA7#12 ∧ e = .selfProgramming := by
  rw [writeFault_some_iff, hsp]
  exact or_iff_left fun htos => h.2 htos.1 htos.2.1

theorem not_readable_of_error {A : DAddr} {s : State} {e : Fault} (h : readOperand A s = .error e) : ¬ Readable A s :=
  fun hread => by rw [readOperand_of_readable hread] at h; cases h

/-- Resolving an operand and writing it stops for the reasons of `StoreFault`. -/
theorem storeFault_iff {A : DAddr} {s t : State} {e : Fault} (hsp : t.sp = s.sp) :
    StoreFault A s e ↔
      (¬ Resolvable A s ∧ e = .indirectOnOwnFSR) ∨ (Resolvable A s ∧ writeFault (target A s) t = some e) := by
  rw [StoreFault, readOperand_error_iff, writeFault_some_iff, hsp, Readable]
  have heecon2 := @not_mem_tosTargets_eecon2 (target A s)
  tauto

theorem fileOp_error_iff {f : Byte} {d a : Bool} {alu : Byte → Byte → Status → Byte × FlagWrite} {skips : Byte → Bool}
    {s : State} {e : Fault} :
    fileOp f d a alu skips s = .error e ↔
      if d then StoreFault (ea f a s) s e else readOperand (ea f a s) s = .error e := by
  unfold fileOp StoreFault
  cases hr : readOperand (ea f a s) s with
  | error e' => simp [not_readable_of_error hr]
  | ok p =>
    obtain ⟨hread, rfl⟩ := readOperand_ok_iff.1 hr
    dsimp only
    cases d with
    | false => simp [writeDest]
    | true =>
      simp only [writeDest, if_true]
      rw [← writeFault_of_readable hread (t := (afterRead (ea f a s) s).advance 2) (by simp)]
      generalize alu (operand (ea f a s) s) (afterRead (ea f a s) s).w (afterRead (ea f a s) s).status = out
      rw [← writeF_error_iff (affects := out.2.affects) (v := out.1)]
      cases writeF _ _ _ _ <;> simp [hread]

theorem fileStore_error_iff {f : Byte} {a : Bool} {v : Byte} {fw : FlagWrite} {s : State} {e : Fault} :
    fileStore f a v fw s = .error e ↔ StoreFault (ea f a s) s e := by
  rw [storeFault_iff (t := (bump (ea f a s) s).advance 2) (by simp), ← writeF_error_iff (affects := fw.affects) (v := v)]
  unfold fileStore
  by_cases hres : Resolvable (ea f a s) s
  · rw [resolve_ok_iff.2 ⟨hres, rfl⟩]
    dsimp only
    cases writeF _ _ _ _ <;> simp [hres]
  · rw [resolve_of_not_resolvable hres]
    simp [hres, eq_comm]

theorem fileTest_error_iff {f : Byte} {a : Bool} {test : Byte → Byte → Bool} {s : State} {e : Fault} :
    fileTest f a test s = .error e ↔ readOperand (ea f a s) s = .error e := by
  unfold fileTest
  cases readOperand (ea f a s) s <;> simp

theorem exec_mulwf_fault_iff {f : Byte} {a : Bool} {s : State} {e : Fault} :
    exec (.mulwf f a) s = .fault e ↔ readOperand (ea f a s) s = .error e := by
  show execMulwf f a s = _ ↔ _
  unfold execMulwf
  cases readOperand (ea f a s) s <;> simp

/-- Why MOVFF stops, its forbidden addresses apart: its source, else its destination in the state after the read. -/
theorem exec_movff_fault_iff {fs fd : DAddr} {s : State} {e : Fault} (hfd : movffForbidden fd = false) (hfs : fs ≠ 0xFF9#12) :
    exec (.movff fs fd) s = .fault e ↔
      readOperand fs s = .error e ∨ (Readable fs s ∧ StoreFault fd ((afterRead fs s).advance 4) e) := by
  show execMovff fs fd s = _ ↔ _
  unfold execMovff
  rw [hfd, if_neg nofun, if_neg hfs]
  cases hr : readOperand fs s with
  | error e' => simp [not_readable_of_error hr]
  | ok p =>
    obtain ⟨hread, rfl⟩ := readOperand_ok_iff.1 hr
    have hsp : (bump fd ((afterRead fs s).advance 4)).sp = ((afterRead fs s).advance 4).sp := bump_sp _ _
    rw [storeFault_iff hsp, ← writeData_error_iff (v := operand fs s)]
    dsimp only
    by_cases hres : Resolvable fd ((afterRead fs s).advance 4)
    · rw [resolve_ok_iff.2 ⟨hres, rfl⟩]
      simp [hres, hread, outcome_fault_iff]
    · rw [resolve_of_not_resolvable hres]
      simp [hres, hread, eq_comm]

/-! ### When a file operand stops the model -/

theorem readOperand_of_own_pointer {A : DAddr} {s : State} (h : ¬ Resolvable A s) :
    readOperand A s = .error .indirectOnOwnFSR := readOperand_error_iff.2 (.inl ⟨h, rfl⟩)

theorem readOperand_of_empty_stack {A : DAddr} {s : State} (hres : Resolvable A s) (hT : target A s ∈ tosTargets)
    (hsp : s.sp = 0#5) : readOperand A s = .error .stackEmptyAccess := readOperand_error_iff.2 (.inr ⟨hres, hT, hsp, rfl⟩)

theorem storeFault_of_eecon2 {A : DAddr} {s : State} (hres : Resolvable A s) (hT : target A s = some 0xFA7#12) :
    StoreFault A s .selfProgramming :=
  .inr ⟨⟨hres, fun h => absurd h (not_mem_tosTargets_eecon2 hT)⟩, hT, rfl⟩

/-- An operand that cannot be read stops every form, those that only write it too. -/
theorem exec_of_operand_error {f : Byte} {b : BitVec 3} {d a : Bool} {s : State} {e : Fault}
    (h : readOperand (ea f a s) s = .error e) :
    ∀ i ∈ (aluForms f d a ++ modifyForms f b a ++ testForms f b a ++ [.mulwf f a]) ++ storeForms f a, exec i s = .fault e := by
  intro i hi
  simp only [List.mem_append, List.mem_singleton] at hi
  rcases hi with (((hi | hi) | hi) | rfl) | hi
  · obtain ⟨alu, skips, hform⟩ := fileForm_of_aluForms hi
    rw [hform.exec_eq, outcome_fault_iff, fileOp_error_iff]
    cases d
    · exact h
    · exact .inl h
  · obtain ⟨alu, skips, hform⟩ := fileForm_of_modifyForms hi
    rw [hform.exec_eq, outcome_fault_iff, fileOp_error_iff]
    exact .inl h
  · obtain ⟨test, hform⟩ := testForm_of_testForms hi
    rw [hform.exec_eq, outcome_fault_iff, fileTest_error_iff, h]
  · rw [exec_mulwf_fault_iff, h]
  · obtain ⟨v, fw, hform⟩ := storeForm_of_storeForms hi
    rw [hform.exec_eq, outcome_fault_iff, fileStore_error_iff]
    exact .inl h

/-- An operand that cannot be stored to stops every form that stores to it. -/
theorem exec_of_storeFault {f : Byte} {b : BitVec 3} {a : Bool} {s : State} {e : Fault} (h : StoreFault (ea f a s) s e) :
    ∀ i ∈ aluForms f true a ++ modifyForms f b a ++ storeForms f a, exec i s = .fault e := by
  intro i hi
  simp only [List.mem_append] at hi
  rcases hi with (hi | hi) | hi
  · obtain ⟨alu, skips, hform⟩ := fileForm_of_aluForms hi
    rw [hform.exec_eq, outcome_fault_iff, fileOp_error_iff]
    exact h
  · obtain ⟨alu, skips, hform⟩ := fileForm_of_modifyForms hi
    rw [hform.exec_eq, outcome_fault_iff, fileOp_error_iff]
    exact h
  · obtain ⟨v, fw, hform⟩ := storeForm_of_storeForms hi
    rw [hform.exec_eq, outcome_fault_iff, fileStore_error_iff]
    exact h

/-- Settles O46: the faults of the templates, each in the states that raise it. -/
theorem fileOperandFaults : Obligations.FileOperandFaults := by
  refine ⟨fun f b d a s => ⟨fun h => exec_of_operand_error (readOperand_of_own_pointer h),
    fun hres hT hsp => exec_of_operand_error (readOperand_of_empty_stack hres hT hsp),
    fun hres hT => exec_of_storeFault (storeFault_of_eecon2 hres hT)⟩, ?_⟩
  intro fs fd s hfd hfs s1
  have hsp : s1.sp = s.sp := by simp [s1]
  have hfault {e : Fault} := exec_movff_fault_iff (s := s) (e := e) (Bool.eq_false_iff.2 (mt movffForbidden_iff.1 hfd)) hfs
  exact ⟨fun h => hfault.2 (.inl (readOperand_of_own_pointer h)),
    fun hres hT hempty => hfault.2 (.inl (readOperand_of_empty_stack hres hT hempty)),
    fun hread => ⟨fun h => hfault.2 (.inr ⟨hread, .inl (readOperand_of_own_pointer h)⟩),
      fun hres hT hempty => hfault.2 (.inr ⟨hread, .inl (readOperand_of_empty_stack hres hT (hsp.trans hempty))⟩),
      fun hres hT => hfault.2 (.inr ⟨hread, storeFault_of_eecon2 hres hT⟩)⟩⟩

/-! ### What can stop an instruction -/

theorem tableReadThen_ne_refused {after : State → State} {s : State} {r : Refusal} :
    tableReadThen after s ≠ .refused r := by
  unfold tableReadThen
  cases tableRead s <;> nofun

theorem pushThen_ne_refused {v : BitVec 21} {k : State → State} {s : State} {r : Refusal} :
    pushThen v k s ≠ .refused r := by
  unfold pushThen
  cases push v s <;> nofun

theorem popThen_ne_refused {k : BitVec 21 → State → State} {s : State} {r : Refusal} : popThen k s ≠ .refused r := by
  unfold popThen
  cases pop s <;> nofun

theorem plain_ne_refused {i : Instr} (hi : Plain i) (s : State) (r : Refusal) : exec i s ≠ .refused r := by
  obtain ⟨hfile, hmovff, -⟩ := hi
  cases i with
  | movff => exact absurd rfl (hmovff _ _)
  | tblrd | tblrdPostInc | tblrdPostDec | tblrdPreInc => exact tableReadThen_ne_refused
  | call | rcall | push => exact pushThen_ne_refused
  | ret | retlw => exact popThen_ne_refused
  | retfie => exact outcome_ne_refused
  | pop => rw [exec_pop]; split <;> nofun
  | lfsr ff k =>
    show execLfsr ff k s ≠ _
    unfold execLfsr
    split <;> nofun
  | addlw | sublw | andlw | iorlw | xorlw | daw | movlb | movlw | mullw | clrwdt | sleep | nop | nopF | tblwt | tblwtPostInc
  | tblwtPostDec | tblwtPreInc | bc | bn | bnc | bnn | bnov | bnz | bov | bz | bra | goto | reset => exact nofun
  | _ => cases hfile

theorem exec_ne_refused (i : Instr) (s : State) (r : Refusal) : exec i s ≠ .refused r := by
  rcases instr_family i with ⟨f, d, a, alu, skips, hf⟩ | ⟨f, a, v, fw, hf⟩ | ⟨f, a, test, hf⟩ | ⟨f, a, rfl⟩ |
    ⟨fs, fd, rfl⟩ | rfl | hplain
  · rw [hf.exec_eq]; exact outcome_ne_refused
  · rw [hf.exec_eq]; exact outcome_ne_refused
  · rw [hf.exec_eq]; exact outcome_ne_refused
  · show execMulwf f a s ≠ _
    unfold execMulwf
    cases readOperand (ea f a s) s <;> nofun
  · show execMovff fs fd s ≠ _
    unfold execMovff
    split
    · nofun
    · split
      · nofun
      · cases readOperand fs s with
        | error e => nofun
        | ok p =>
          dsimp only
          cases resolve fd (p.2.2.advance 4) with
          | error e => nofun
          | ok q => exact outcome_ne_refused
  · nofun
  · exact plain_ne_refused hplain s r

/-- What can stop an instruction without a data operand. -/
theorem plain_fault {i : Instr} (hi : Plain i) {s : State} {e : Fault} (h : exec i s = .fault e) :
    (e = .stackOverflow ∧ 30 ≤ s.sp.toNat ∧ ((∃ k b, i = .call k b) ∨ (∃ n, i = .rcall n) ∨ i = .push)) ∨
      (e = .stackUnderflow ∧ s.sp = 0#5 ∧
        ((∃ b, i = .ret b) ∨ (∃ k, i = .retlw k) ∨ (∃ b, i = .retfie b) ∨ i = .pop)) ∨
      (e = .tableReadOutside ∧
        ((i ∈ [.tblrd, .tblrdPostInc, .tblrdPostDec] ∧ Config.progMemBytes ≤ s.tblptr.toNat) ∨
          (i = .tblrdPreInc ∧ Config.progMemBytes ≤ (s.tblptr.toNat + 1) % 2 ^ 22))) ∨
      (e = .illegalInstruction ∧ ∃ k, i = .lfsr 3#2 k) := by
  obtain ⟨hfile, hmovff, -⟩ := hi
  cases i with
  | movff => exact absurd rfl (hmovff _ _)
  | tblrd | tblrdPostInc | tblrdPostDec =>
    obtain ⟨hptr, rfl⟩ := tableReadThen_fault_iff.1 h
    exact .inr (.inr (.inl ⟨rfl, .inl ⟨by decide, hptr⟩⟩))
  | tblrdPreInc =>
    obtain ⟨hptr, rfl⟩ := tableReadThen_fault_iff.1 h
    rw [tblptrInc_eq] at hptr
    exact .inr (.inr (.inl ⟨rfl, .inr ⟨rfl, by simpa using hptr⟩⟩))
  | call k b =>
    obtain ⟨hsp, rfl⟩ := pushThen_fault_iff.1 h
    exact .inl ⟨rfl, by omega, .inl ⟨k, b, rfl⟩⟩
  | rcall n =>
    obtain ⟨hsp, rfl⟩ := pushThen_fault_iff.1 h
    exact .inl ⟨rfl, by omega, .inr (.inl ⟨n, rfl⟩)⟩
  | push =>
    obtain ⟨hsp, rfl⟩ := pushThen_fault_iff.1 h
    exact .inl ⟨rfl, by omega, .inr (.inr rfl)⟩
  | ret b =>
    obtain ⟨hsp, rfl⟩ := popThen_fault_iff.1 h
    exact .inr (.inl ⟨rfl, hsp, .inl ⟨b, rfl⟩⟩)
  | retlw k =>
    obtain ⟨hsp, rfl⟩ := popThen_fault_iff.1 h
    exact .inr (.inl ⟨rfl, hsp, .inr (.inl ⟨k, rfl⟩)⟩)
  | retfie b =>
    obtain ⟨hsp, rfl⟩ := exec_retfie_fault_iff.1 h
    exact .inr (.inl ⟨rfl, hsp, .inr (.inr (.inl ⟨b, rfl⟩))⟩)
  | pop =>
    rw [exec_pop] at h
    split at h
    · cases h; exact .inr (.inl ⟨rfl, ‹_›, .inr (.inr (.inr rfl))⟩)
    · cases h
  | lfsr ff k =>
    have hcases : ∀ ff : BitVec 2, exec (.lfsr ff k) s = .fault e → ff = 3#2 ∧ e = .illegalInstruction := by
      intro ff h
      change execLfsr ff k s = .fault e at h
      unfold execLfsr at h
      split at h <;> cases h
      refine ⟨BitVec.eq_of_toNat_eq ?_, rfl⟩
      have := ff.isLt
      simp_all
      omega
    obtain ⟨rfl, rfl⟩ := hcases ff h
    exact .inr (.inr (.inr ⟨rfl, k, rfl⟩))
  | addlw | sublw | andlw | iorlw | xorlw | daw | movlb | movlw | mullw | clrwdt | sleep | nop | nopF | tblwt | tblwtPostInc
  | tblwtPostDec | tblwtPreInc | bc | bn | bnc | bnn | bnov | bnz | bov | bz | bra | goto | reset => cases h
  | _ => cases hfile

theorem readOperand_error_cases {A : DAddr} {s : State} {e : Fault} (h : readOperand A s = .error e) :
    (e = .indirectOnOwnFSR ∧ ¬ Resolvable A s) ∨ (e = .stackEmptyAccess ∧ s.sp = 0#5 ∧ target A s ∈ tosTargets) := by
  rcases readOperand_error_iff.1 h with ⟨hres, he⟩ | ⟨-, hT, hsp, he⟩
  · exact .inl ⟨he, hres⟩
  · exact .inr ⟨he, hsp, hT⟩

theorem storeFault_cases {A : DAddr} {s : State} {e : Fault} (h : StoreFault A s e) :
    (e = .indirectOnOwnFSR ∧ ¬ Resolvable A s) ∨ (e = .stackEmptyAccess ∧ s.sp = 0#5 ∧ target A s ∈ tosTargets) ∨
      (e = .selfProgramming ∧ target A s = some 0xFA7#12) := by
  rcases h with h | ⟨-, hT, he⟩
  · exact (readOperand_error_cases h).imp_right .inl
  · exact .inr (.inr ⟨he, hT⟩)

/-- What can stop an instruction with a file operand. -/
theorem fileOperand_fault {i : Instr} {f : Byte} {a : Bool} (hi : fileOperand i = some (f, a)) {s : State} {e : Fault}
    (h : exec i s = .fault e) :
    (e = .indirectOnOwnFSR ∧ ¬ Resolvable (ea f a s) s) ∨
      (e = .stackEmptyAccess ∧ s.sp = 0#5 ∧ target (ea f a s) s ∈ tosTargets) ∨
      (e = .selfProgramming ∧ writtenAddress i s = some 0xFA7#12) := by
  have hsame {f' a'} (hform : fileOperand i = some (f', a')) : f' = f ∧ a' = a := by
    rw [hi] at hform
    cases hform
    exact ⟨rfl, rfl⟩
  rcases instr_family i with ⟨f', d, a', alu, skips, hf⟩ | ⟨f', a', v, fw, hf⟩ | ⟨f', a', test, hf⟩ | ⟨f', a', rfl⟩ |
    ⟨fs, fd, rfl⟩ | rfl | hplain
  · obtain ⟨rfl, rfl⟩ := hsame hf.file
    rw [hf.exec_eq, outcome_fault_iff, fileOp_error_iff] at h
    cases d with
    | false => exact (readOperand_error_cases h).imp_right .inl
    | true => rw [hf.written]; exact storeFault_cases h
  · obtain ⟨rfl, rfl⟩ := hsame hf.file
    rw [hf.exec_eq, outcome_fault_iff, fileStore_error_iff] at h
    rw [hf.written]
    exact storeFault_cases h
  · obtain ⟨rfl, rfl⟩ := hsame hf.file
    rw [hf.exec_eq, outcome_fault_iff, fileTest_error_iff] at h
    exact (readOperand_error_cases h).imp_right .inl
  · obtain ⟨rfl, rfl⟩ := hsame rfl
    exact (readOperand_error_cases (exec_mulwf_fault_iff.1 h)).imp_right .inl
  · cases hi
  · cases hi
  · rw [hplain.1] at hi
    cases hi

/-- What can stop MOVFF. -/
theorem movff_fault {fs fd : DAddr} {s : State} {e : Fault} (h : exec (.movff fs fd) s = .fault e) :
    (e = .movffForbiddenDestination ∧ fd ∈ [0xFF9#12, 0xFFD#12, 0xFFE#12, 0xFFF#12]) ∨
      (e = .movffPclSource ∧ fs = 0xFF9#12) ∨
      (e = .indirectOnOwnFSR ∧ (¬ Resolvable fs s ∨ ¬ Resolvable fd ((afterRead fs s).advance 4))) ∨
      (e = .stackEmptyAccess ∧ s.sp = 0#5 ∧
        (target fs s ∈ tosTargets ∨ target fd ((afterRead fs s).advance 4) ∈ tosTargets)) ∨
      (e = .selfProgramming ∧ target fd ((afterRead fs s).advance 4) = some 0xFA7#12) := by
  obtain ⟨-, hforbidden, hpcl⟩ := moveFileToFile fs fd s
  by_cases hfd : fd ∈ [0xFF9#12, 0xFFD#12, 0xFFE#12, 0xFFF#12]
  · rw [hforbidden hfd] at h
    cases h
    exact .inl ⟨rfl, hfd⟩
  by_cases hfs : fs = 0xFF9#12
  · rw [hpcl hfd hfs] at h
    cases h
    exact .inr (.inl ⟨rfl, hfs⟩)
  have hsp : ((afterRead fs s).advance 4).sp = s.sp := by simp
  rcases (exec_movff_fault_iff (Bool.eq_false_iff.2 (mt movffForbidden_iff.1 hfd)) hfs).1 h with hr | ⟨-, hstore⟩
  · rcases readOperand_error_cases hr with ⟨he, hres⟩ | ⟨he, hsp, hT⟩
    · exact .inr (.inr (.inl ⟨he, .inl hres⟩))
    · exact .inr (.inr (.inr (.inl ⟨he, hsp, .inl hT⟩)))
  · rcases storeFault_cases hstore with ⟨he, hres⟩ | ⟨he, hempty, hT⟩ | ⟨he, hT⟩
    · exact .inr (.inr (.inl ⟨he, .inr hres⟩))
    · exact .inr (.inr (.inr (.inl ⟨he, hsp ▸ hempty, .inr hT⟩)))
    · exact .inr (.inr (.inr (.inr ⟨he, hT⟩)))

/-- Settles O47: by the instruction's operand: a file operand, MOVFF's two, or none. -/
theorem faultCauses : Obligations.FaultCauses := by
  refine ⟨exec_ne_refused, fun i s e h => ?_⟩
  cases hfile : fileOperand i with
  | some p =>
    obtain ⟨f, a⟩ := p
    rcases fileOperand_fault hfile h with ⟨rfl, hres⟩ | ⟨rfl, hsp, hT⟩ | ⟨rfl, hT⟩
    · exact .inl ⟨f, a, rfl, hres⟩
    · exact ⟨hsp, .inl ⟨f, a, rfl, hT⟩⟩
    · exact hT
  | none =>
    by_cases hmovff : ∃ fs fd, i = .movff fs fd
    · obtain ⟨fs, fd, rfl⟩ := hmovff
      rcases movff_fault h with ⟨rfl, hfd⟩ | ⟨rfl, rfl⟩ | ⟨rfl, hres⟩ | ⟨rfl, hsp, hT⟩ | ⟨rfl, hT⟩
      · exact ⟨fs, fd, rfl, hfd⟩
      · exact ⟨fd, rfl⟩
      · exact .inr ⟨fs, fd, rfl, hres⟩
      · exact ⟨hsp, .inr ⟨fs, fd, rfl, hT⟩⟩
      · exact hT
    · have hplain : Plain i := ⟨hfile, fun fs fd hi => hmovff ⟨fs, fd, hi⟩, fun hi => by rw [hi] at h; cases h⟩
      rcases plain_fault hplain h with ⟨rfl, hcause⟩ | ⟨rfl, hcause⟩ | ⟨rfl, hcause⟩ | ⟨rfl, hcause⟩
      · exact hcause
      · exact hcause
      · exact hcause
      · exact hcause
end Sys2Proof

end

section
/-! Proofs of the step: the fetch, interrupts, standby, and the environment. -/

namespace Sys2Proof

open Machine

/-! ### How a step goes on from its boundary -/

theorem step_of_reset {s t : State} (hb : boundary s = .reset t) : step s = .next t := by simp [step, hb]

section
variable {s s1 : State} (hb : boundary s = .run s1)
include hb

theorem step_of_asleep (hs : s1.wakeIfRequested.sleeping = true) : step s = .next s1.wakeIfRequested := by
  simp [step, hb, hs]

theorem step_of_interrupt (hs : s1.wakeIfRequested.sleeping = false) {lvl : IrqLevel}
    (hp : pendingInterrupt s1.wakeIfRequested = some lvl) : step s = outcome (takeInterrupt lvl s1.wakeIfRequested) := by
  simp [step, hb, hs, hp]

theorem step_of_fetch_ok (hs : s1.wakeIfRequested.sleeping = false) (hp : pendingInterrupt s1.wakeIfRequested = none)
    {i : Instr} {rest : List Byte} (hd : decode (fetchBytes s1.wakeIfRequested) = .ok i rest) :
    step s = exec i s1.wakeIfRequested := by
  simp [step, hb, hs, hp, fetch, hd]

theorem step_of_fetch_error (hs : s1.wakeIfRequested.sleeping = false) (hp : pendingInterrupt s1.wakeIfRequested = none)
    {e : Fault} (hf : fetch s1.wakeIfRequested = .error e) : step s = .fault e := by
  simp [step, hb, hs, hp, hf]

end

theorem boundary_of_no_move {s : State} (h : s.env = []) : boundary s = .run s := by simp [boundary, h]

theorem wakeIfRequested_of_awake {s : State} (h : s.sleeping = false) : s.wakeIfRequested = s := by
  simp [State.wakeIfRequested, h]

theorem wakeIfRequested_of_request (s : State) (h : wakeRequest s = true) :
    s.wakeIfRequested = { s with sleeping := false } := by
  cases hs : s.sleeping
  · rw [wakeIfRequested_of_awake hs, ← hs]
  · simp [State.wakeIfRequested, h, hs]

/-! ### The step from a quiet state (R12, R82) -/

/-- Settles O9: the step's last case; in a quiet state the boundary and the wake-up leave the state. -/
theorem stepRunsDecodedInstruction : Obligations.StepRunsDecodedInstruction := by
  refine ⟨fun s s1 i rest hb hs hp hd => step_of_fetch_ok hb hs hp hd, fun s i rest ⟨henv, hs, hp⟩ hd => ?_⟩
  have hwake := wakeIfRequested_of_awake hs
  have hstep := step_of_fetch_ok (i := i) (rest := rest) (boundary_of_no_move henv)
  rw [hwake] at hstep
  exact hstep hs hp hd

theorem step_of_quiet_fetch_error {s : State} (hq : Quiet s) {e : Fault} (hf : fetch s = .error e) :
    step s = .fault e := by
  obtain ⟨henv, hs, hp⟩ := hq
  have hstep := step_of_fetch_error (e := e) (boundary_of_no_move henv)
  rw [wakeIfRequested_of_awake hs] at hstep
  exact hstep hs hp hf

/-- A first word that needs a second decodes to nothing without it. -/
theorem decode_truncated {x : IWord} (h : firstOfTwo x = true) : decode [x.lo, x.hi] = .truncated := by
  unfold firstOfTwo at h
  cases hf : decodeFirst Config.hasSubfwbDaw x.hi x.lo with
  | one i => rw [hf] at h; cases h
  | illegal => rw [hf] at h; cases h
  | movff | lfsr | call | goto => simp only [decode, decodeOn, hf]

theorem fetch_of_truncated {s : State} (h : decode (fetchBytes s) = .truncated) :
    fetch s = .error .fetchOutsideProgram := by
  simp [fetch, h]

/-- Settles O10: the bytes a fetch finds at the end of program memory, and the two rejections of the decoder. -/
theorem fetchFaults : Obligations.FetchFaults := by
  intro s hq
  refine ⟨fun hend => ?_, fun hin hend htwo => ?_, fun hd => ?_, fun hd => ?_⟩
  · have hbytes : fetchBytes s = [] := if_neg (Nat.not_lt.2 hend)
    exact step_of_quiet_fetch_error hq (fetch_of_truncated (by rw [hbytes]; rfl))
  · have hbytes : fetchBytes s = [(s.progWord s.pc.toNat).lo, (s.progWord s.pc.toNat).hi] := by
      have hlo : (s.progWord s.pc.toNat).lo = s.progByte s.pc.toNat := lo_mkWord _ _
      have hhi : (s.progWord s.pc.toNat).hi = s.progByte (s.pc.toNat + 1) := hi_mkWord _ _
      rw [hlo, hhi]
      simp [fetchBytes, hin, Nat.not_lt.2 hend]
    exact step_of_quiet_fetch_error hq (fetch_of_truncated (by rw [hbytes]; exact decode_truncated htwo))
  · exact step_of_quiet_fetch_error hq (by simp [fetch, hd])
  · exact step_of_quiet_fetch_error hq (by simp [fetch, hd])

/-! ### Interrupt sources as register bits (R312) -/

/-- The row of R312 of a source. -/
def rowOf : IrqSource → IrqRow
  | .int0 => ⟨(0xFF2#12, 1), (0xFF2#12, 4), none⟩
  | .int1 => ⟨(0xFF0#12, 0), (0xFF0#12, 3), some (0xFF0#12, 6)⟩
  | .int2 => ⟨(0xFF0#12, 1), (0xFF0#12, 4), some (0xFF0#12, 7)⟩
  | .tmr0 => ⟨(0xFF2#12, 2), (0xFF2#12, 5), some (0xFF1#12, 2)⟩
  | .rb => ⟨(0xFF2#12, 0), (0xFF2#12, 3), some (0xFF1#12, 0)⟩
  | .periph1 b => ⟨(0xF9E#12, b.toNat), (0xF9D#12, b.toNat), some (0xF9F#12, b.toNat)⟩
  | .periph2 b => ⟨(0xFA1#12, b.toNat), (0xFA0#12, b.toNat), some (0xFA2#12, b.toNat)⟩

theorem coreRows_eq : coreRows = coreSources.map rowOf := by decide

theorem periphRows_perm : periphRows.Perm (periphSources.map rowOf) := by decide

theorem Machine.Intcon.ofByte_toByte (i : Intcon) : Intcon.ofByte i.toByte = i := by
  obtain ⟨gie, peie, tmr0ie, int0ie, rbie, tmr0if, int0if, rbif⟩ := i
  revert gie peie tmr0ie int0ie rbie tmr0if int0if rbif
  decide

theorem regBit_sfr {a : DAddr} (r : Sfr) (h : sfrAt a = some r) (n : Nat) (s : State) :
    regBit (a, n) s = (peekSfr r s).getLsbD n := by
  rw [regBit, peek_sfr r h]

/-- The bits of INTCON as a data read shows them. -/
theorem regBit_intcon (s : State) :
    Intcon.mk (regBit (0xFF2#12, 7) s) (regBit (0xFF2#12, 6) s) (regBit (0xFF2#12, 5) s) (regBit (0xFF2#12, 4) s)
      (regBit (0xFF2#12, 3) s) (regBit (0xFF2#12, 2) s) (regBit (0xFF2#12, 1) s) (regBit (0xFF2#12, 0) s) = s.intcon := by
  have hbit (n : Nat) : regBit (0xFF2#12, n) s = s.intcon.toByte.getLsbD n := regBit_sfr .intcon rfl n s
  simp only [hbit]
  exact Intcon.ofByte_toByte s.intcon

theorem regBit_ipen (s : State) : regBit (0xFD0#12, 7) s = s.rcon.ipen := by
  rw [regBit_sfr .rcon rfl]
  exact congrArg Rcon.ipen (Rcon.ofByte_toByte s.rcon)

theorem rowOf_flag (x : IrqSource) (s : State) : regBit (rowOf x).flag s = irqFlag s x := by
  cases x with
  | int0 => exact congrArg Intcon.int0if (regBit_intcon s)
  | tmr0 => exact congrArg Intcon.tmr0if (regBit_intcon s)
  | rb => exact congrArg Intcon.rbif (regBit_intcon s)
  | int1 | int2 => exact regBit_sfr .intcon3 rfl _ s
  | periph1 b => exact regBit_sfr .pir1 rfl _ s
  | periph2 b => exact regBit_sfr .pir2 rfl _ s

theorem rowOf_enable (x : IrqSource) (s : State) : regBit (rowOf x).enable s = irqEnable s x := by
  cases x with
  | int0 => exact congrArg Intcon.int0ie (regBit_intcon s)
  | tmr0 => exact congrArg Intcon.tmr0ie (regBit_intcon s)
  | rb => exact congrArg Intcon.rbie (regBit_intcon s)
  | int1 | int2 => exact regBit_sfr .intcon3 rfl _ s
  | periph1 b => exact regBit_sfr .pie1 rfl _ s
  | periph2 b => exact regBit_sfr .pie2 rfl _ s

theorem rowOf_requests (x : IrqSource) (s : State) : (rowOf x).requests s ↔ irqRequest s x = true := by
  rw [IrqRow.requests, rowOf_flag, rowOf_enable, irqRequest, Bool.and_eq_true, and_comm]

theorem IrqRow.high_of_some {r : IrqRow} {p : DAddr × Nat} (h : r.priority = some p) (s : State) :
    r.high s ↔ regBit p s = true := by
  simp [IrqRow.high, h]

theorem rowOf_high (x : IrqSource) (s : State) : (rowOf x).high s ↔ irqHigh s x = true := by
  cases x with
  | int0 => simp [IrqRow.high, rowOf, irqHigh]
  | int1 | int2 => rw [IrqRow.high_of_some rfl, regBit_sfr .intcon3 rfl]; rfl
  | tmr0 | rb => rw [IrqRow.high_of_some rfl, regBit_sfr .intcon2 rfl]; rfl
  | periph1 b => rw [IrqRow.high_of_some rfl, regBit_sfr .ipr1 rfl]; rfl
  | periph2 b => rw [IrqRow.high_of_some rfl, regBit_sfr .ipr2 rfl]; rfl

/-- A statement over the core rows is one over the core sources. -/
theorem exists_coreRow_iff {P : IrqRow → Prop} : (∃ r ∈ coreRows, P r) ↔ ∃ x ∈ coreSources, P (rowOf x) := by
  rw [coreRows_eq]
  simp

theorem exists_periphRow_iff {P : IrqRow → Prop} : (∃ r ∈ periphRows, P r) ↔ ∃ x ∈ periphSources, P (rowOf x) := by
  simp [periphRows_perm.mem_iff]

theorem exists_row_iff {P : IrqRow → Prop} : (∃ r ∈ coreRows ++ periphRows, P r) ↔ ∃ x ∈ irqSources, P (rowOf x) := by
  simp only [irqSources, List.mem_append, or_and_right, exists_or, exists_coreRow_iff, exists_periphRow_iff]

theorem wakeRequest_iff (s : State) : wakeRequest s = true ↔ ∃ r ∈ coreRows ++ periphRows, r.requests s := by
  simp only [exists_row_iff, rowOf_requests, wakeRequest, List.any_eq_true]

theorem requestHigh_iff (s : State) :
    requestHigh s = true ↔
      (¬ s.rcon.ipen = true ∧
          ((∃ r ∈ coreRows, r.requests s) ∨ (s.intcon.peie = true ∧ ∃ r ∈ periphRows, r.requests s))) ∨
        (s.rcon.ipen = true ∧ ∃ r ∈ coreRows ++ periphRows, r.requests s ∧ r.high s) := by
  simp only [exists_coreRow_iff, exists_periphRow_iff, exists_row_iff, rowOf_requests, rowOf_high]
  unfold requestHigh
  cases s.rcon.ipen <;> simp

theorem requestLow_iff (s : State) :
    requestLow s = true ↔ s.rcon.ipen = true ∧ ∃ r ∈ coreRows ++ periphRows, r.requests s ∧ ¬ r.high s := by
  simp only [exists_row_iff, rowOf_requests, rowOf_high]
  unfold requestLow
  simp

theorem pendingInterrupt_high_iff (s : State) :
    pendingInterrupt s = some .high ↔ s.intcon.gie = true ∧ requestHigh s = true := by
  unfold pendingInterrupt
  cases s.intcon.gie <;> cases requestHigh s <;> simp

theorem pendingInterrupt_low_iff (s : State) :
    pendingInterrupt s = some .low ↔
      s.intcon.gie = true ∧ s.intcon.peie = true ∧ requestLow s = true ∧ ¬ (s.intcon.gie = true ∧ requestHigh s = true) := by
  unfold pendingInterrupt
  cases s.intcon.gie <;> cases requestHigh s <;> simp

/-- Settles O52: the sources' bits are those of their rows. -/
theorem interruptConditions : Obligations.InterruptConditions := by
  intro s
  have hgie : regBit (0xFF2#12, 7) s = s.intcon.gie := congrArg Intcon.gie (regBit_intcon s)
  have hpeie : regBit (0xFF2#12, 6) s = s.intcon.peie := congrArg Intcon.peie (regBit_intcon s)
  dsimp only
  rw [pendingInterrupt_high_iff, pendingInterrupt_low_iff, requestHigh_iff, requestLow_iff, hgie, hpeie, regBit_ipen]
  exact ⟨Iff.rfl, Iff.rfl⟩

/-! ### Interrupt entry (R316, R317) -/

/-- A pending interrupt is a request, which wakes the core. -/
theorem wakeRequest_of_pending {s : State} {lvl : IrqLevel} (h : pendingInterrupt s = some lvl) :
    wakeRequest s = true := by
  rw [wakeRequest_iff]
  cases lvl with
  | high =>
    rcases (requestHigh_iff s).1 ((pendingInterrupt_high_iff s).1 h).2 with
      ⟨-, ⟨r, hr, hreq⟩ | ⟨-, r, hr, hreq⟩⟩ | ⟨-, r, hr, hreq, -⟩
    · exact ⟨r, List.mem_append_left _ hr, hreq⟩
    · exact ⟨r, List.mem_append_right _ hr, hreq⟩
    · exact ⟨r, hr, hreq⟩
  | low =>
    obtain ⟨-, -, hlow, -⟩ := (pendingInterrupt_low_iff s).1 h
    obtain ⟨-, r, hr, hreq, -⟩ := (requestLow_iff s).1 hlow
    exact ⟨r, hr, hreq⟩

/-- Standby plays no part in what is pending. -/
theorem pendingInterrupt_awake (s : State) : pendingInterrupt { s with sleeping := false } = pendingInterrupt s := rfl

theorem step_of_pending {s s1 : State} {lvl : IrqLevel} (hb : boundary s = .run s1) (hp : pendingInterrupt s1 = some lvl) :
    step s = outcome (takeInterrupt lvl { s1 with sleeping := false }) := by
  have hwake := wakeIfRequested_of_request s1 (wakeRequest_of_pending hp)
  have hstep := step_of_interrupt (lvl := lvl) hb
  rw [hwake] at hstep
  exact hstep rfl hp

/-- Settles O53: the entry's record update, with the pushed pc on top of the stack. -/
theorem interruptEntry : Obligations.InterruptEntry := by
  intro s s1 lvl hb hp
  rw [step_of_pending hb hp]
  refine ⟨fun hroom => ?_, fun hfull => ?_⟩
  · have hlt : s1.sp.toNat + 1 < 31 := by omega
    have hstack := pushed_stack (v := s1.pc) (s := { s1 with sleeping := false }) hroom
    refine ⟨_, outcome_next_iff.2 (takeInterrupt_ok_iff.2 ⟨hlt, rfl⟩), ?_⟩
    obtain ⟨sp, stack, hpush⟩ : ∃ sp stack, pushed s1.pc { s1 with sleeping := false } =
        { s1 with sleeping := false, sp := sp, stack := stack } := ⟨_, _, pushed_eq _ _⟩
    dsimp only
    rw [hpush] at hstack ⊢
    obtain ⟨hsp, htop, hother⟩ := hstack
    refine ⟨hsp, htop, hother, ?_⟩
    cases lvl <;> rfl
  · exact outcome_fault_iff.2 (takeInterrupt_error_iff.2 ⟨by simpa using hfull, rfl⟩)

/-- The state an interrupt entry leaves, field by field. -/
theorem takeInterrupt_fields {lvl : IrqLevel} {s t : State} (h : takeInterrupt lvl s = .ok t) :
    t.sp ≠ 0#5 ∧ t.sp - 1#5 = s.sp ∧ t.stackEntry t.sp = s.pc ∧
      t = { s with pc := lvl.vector, sp := t.sp, stack := t.stack, fast := ⟨s.w, s.status, s.bsr⟩, sleeping := false,
                   intcon := s.intcon.setEnable lvl false, isrLevel := lvl :: s.isrLevel } := by
  obtain ⟨hroom, rfl⟩ := takeInterrupt_ok_iff.1 h
  have htop := pushed_top (v := s.pc) (s := { s with sleeping := false }) hroom
  obtain ⟨stack, hpush⟩ : ∃ stack, pushed s.pc { s with sleeping := false } =
      { s with sleeping := false, sp := s.sp + 1#5, stack := stack } :=
    ⟨_, by rw [pushed_eq, pushed_sp]⟩
  dsimp only
  rw [hpush] at htop ⊢
  exact ⟨sp_succ_ne_zero hroom, BitVec.add_sub_cancel _ _, htop, rfl⟩

theorem Machine.Intcon.setEnable_setEnable (i : Intcon) (lvl : IrqLevel) (x y : Bool) :
    (i.setEnable lvl x).setEnable lvl y = i.setEnable lvl y := by cases lvl <;> rfl

/-- Settles O54: each of RETFIE's operations undoes one of the entry's. -/
theorem interruptRoundTrip : Obligations.InterruptRoundTrip := by
  intro lvl s t ht heven henable
  obtain ⟨hne, hpop, htop, hfields⟩ := takeInterrupt_fields ht
  have hreturn : exec (.retfie true) t =
      .next (({ t with sp := t.sp - 1#5 }.jump (t.stackEntry t.sp)).leaveIsr.restoreFastIf true) :=
    outcome_next_iff.2 (returnFromInterrupt_ok_iff.2 ⟨hne, rfl⟩)
  rw [hreturn, hpop, htop, State.jump, evenPc_of_even s.pc heven]
  generalize t.sp = sp at hfields
  generalize t.stack = stack at hfields ⊢
  subst hfields
  simp only [State.leaveIsr, State.restoreFastIf, if_true, State.restoreFast, Machine.Intcon.setEnable_setEnable, ← henable]

/-! ### Standby (R336) -/

/-- Settles O55: the wake-up by request, or its absence. -/
theorem sleepAndWake : Obligations.SleepAndWake := by
  intro s s1 hb hsleep
  refine ⟨fun hnone => ?_, fun hreq hp i rest hd => ?_⟩
  · have hwake : s1.wakeIfRequested = s1 := by
      have hno : wakeRequest s1 = false := Bool.eq_false_iff.2 fun h => by
        obtain ⟨r, hr, hreq⟩ := (wakeRequest_iff s1).1 h
        exact hnone r hr hreq
      simp [State.wakeIfRequested, hno]
    have hstep := step_of_asleep hb
    rw [hwake] at hstep
    exact hstep hsleep
  · have hwake := wakeIfRequested_of_request s1 ((wakeRequest_iff s1).2 hreq)
    have hstep := step_of_fetch_ok (i := i) (rest := rest) hb
    rw [hwake] at hstep
    exact hstep rfl hp hd

/-! ### The environment's move (R312, R320) -/

theorem getLsbD_setBitTo (v : Byte) (b : BitVec 3) (on : Bool) (n : Nat) :
    (setBitTo v b on).getLsbD n = if n = b.toNat then on else v.getLsbD n := by
  have hge : ¬ n < 8 → v.getLsbD n = false := fun h => BitVec.getLsbD_of_ge _ _ (by omega)
  cases on
  · simp only [setBitTo, Bool.false_eq_true, if_false, BitVec.getLsbD_and, BitVec.getLsbD_not, bitMask_getLsbD]
    by_cases hn : n = b.toNat
    · simp [hn]
    · by_cases h8 : n < 8
      · simp [hn, h8]
      · simp [hn, hge h8]
  · simp only [setBitTo, if_true, BitVec.getLsbD_or, bitMask_getLsbD]
    by_cases hn : n = b.toNat
    · simp [hn]
    · simp [hn]

theorem getLsbD_followFlag (v : Byte) (b : BitVec 3) (o : Option Bool) (n : Nat) :
    (followFlag v b o).getLsbD n = if n = b.toNat then o.getD (v.getLsbD n) else v.getLsbD n := by
  cases o with
  | none => simp [followFlag]
  | some on => rw [followFlag, getLsbD_setBitTo, Option.getD_some]

/-- The bits of PIR1 the environment sets by its mask: all but RCIF and TXIF. -/
theorem getLsbD_pir1_mask (v : Byte) (n : Nat) :
    (v &&& pspMask &&& ~~~pir1ReadOnly).getLsbD n = (v.getLsbD n && decide (n ≠ 4 ∧ n ≠ 5)) := by
  by_cases h : n < 8
  · have hmask : ∀ n < 8, (pspMask &&& ~~~pir1ReadOnly).getLsbD n = decide (n ≠ 4 ∧ n ≠ 5) := by decide
    rw [BitVec.and_assoc, BitVec.getLsbD_and, hmask n h]
  · rw [BitVec.getLsbD_of_ge _ _ (by omega), BitVec.getLsbD_of_ge v _ (by omega), Bool.false_and]

theorem getLsbD_pir2_mask (v : Byte) (n : Nat) : (v &&& irq2Mask).getLsbD n = (decide (n < 5) && v.getLsbD n) := by
  by_cases h : n < 8
  · have hmask : ∀ n < 8, irq2Mask.getLsbD n = decide (n < 5) := by decide
    rw [BitVec.getLsbD_and, hmask n h, Bool.and_comm]
  · rw [BitVec.getLsbD_of_ge _ _ (by omega), BitVec.getLsbD_of_ge v _ (by omega), Bool.and_false]

/-- A flag the environment may set is one bit of a mask. -/
theorem getLsbD_flag_mask (on : Bool) (b : BitVec 3) (n : Nat) :
    (if on then bitMask b else 0#8).getLsbD n = (on && decide (n = b.toNat)) := by
  cases on
  · simp
  · simp [bitMask_getLsbD]

/-- Settles O56: the flags bit by bit. -/
theorem environmentMoves : Obligations.EnvironmentMoves := by
  intro s m later henv hreset htimeout
  have hb : boundary s = .run ({ s with env := later }.applyFlags m) := by simp [boundary, henv, hreset, htimeout]
  refine ⟨_, hb, rfl, ⟨?_, ?_, fun n hn => ?_⟩, ⟨?_, ?_, fun n h4 h5 => ?_⟩, fun n => ?_⟩
  all_goals simp only [State.applyFlags, BitVec.getLsbD_or, getLsbD_flag_mask, getLsbD_followFlag, getLsbD_pir1_mask,
    getLsbD_pir2_mask]
  · simp
  · simp
  · have h0 : n ≠ 0 := by omega
    have h1 : n ≠ 1 := by omega
    simp [h0, h1]
  · simp
  · simp
  · simp [h4, h5]

/-- Settles O57: the reset each kind makes, and the two effects of a time-out. -/
theorem environmentResets : Obligations.EnvironmentResets := by
  intro s m later henv
  refine ⟨fun k hk => ?_, fun hreset htimeout => ⟨fun hawake => ?_, fun hasleep => ?_⟩⟩
  · have hb : boundary s = .reset ({ s with env := later }.externalReset k) := by simp [boundary, henv, hk]
    refine ⟨_, step_of_reset hb, ?_⟩
    cases k <;> exact ⟨rfl, rfl, rfl, rfl, rfl, rfl, rfl, rfl, rfl⟩
  · have hb : boundary s = .reset ({ s with env := later }.applyFlags m).watchdogReset := by
      simp [boundary, henv, hreset, htimeout, Config.wdtEnabled, State.applyFlags, hawake]
    exact ⟨_, step_of_reset hb, rfl, rfl, rfl, rfl, rfl, rfl⟩
  · have hb : boundary s = .run ({ s with env := later }.applyFlags m).watchdogWake := by
      simp [boundary, henv, hreset, htimeout, Config.wdtEnabled, State.applyFlags, hasleep]
    exact ⟨_, hb, rfl, rfl, rfl, rfl, rfl, rfl, rfl, rfl⟩
end Sys2Proof

end
